-- ==== Sys2Proof/Word.lean ====
section
/-! DEFINITION. The word types of the block: every register, operand and result is a 32-bit word
(10_state.md R51), signal values are binary32 bit patterns and phases binary64 bit patterns
(00_scope.md R14, R17), and the fields of a command word are bytes (30_encoding.md R130). -/

namespace Sys2Proof

/-- An 8-bit field of a command word (30_encoding.md R130). -/
abbrev U8 := BitVec 8

/-- A 32-bit register value, read as an unsigned integer (00_scope.md R12). -/
abbrev U32 := BitVec 32

/-- An IEEE 754 binary32 bit pattern (00_scope.md R14, R17): `asF32` and `bits32` are bit copies, so the
type is that of the register. -/
abbrev F32 := BitVec 32

/-- An IEEE 754 binary64 bit pattern (00_scope.md R14, R17). -/
abbrev F64 := BitVec 64

end Sys2Proof
end

