-- ==== Sys2Proof/Syntax.lean ====
section
/-! DEFINITION. The commands of the block: one constructor for each row of the opcode map
(30_encoding.md R134). `u` is the UNIT field and `sel` the SEL field of the word (R130), kept as the
bytes they are: whether a unit exists and a selector is legal are value checks that the command itself
makes (R135, R136). -/

namespace Sys2Proof

/-- The error codes of a rejected command (60_exceptions.md R451). -/
inductive CmdError where
  /-- `OPC` is not in the opcode map. -/
  | illegalOpcode
  /-- `UNIT` names no instance. -/
  | badUnit
  /-- `RSV` is not 0, or `SEL` is not 0 for a command that takes none. -/
  | reservedBits
  /-- `SEL` is outside its legal range. -/
  | badSelector
  /-- The command is illegal in the current context. -/
  | context
  deriving DecidableEq, Repr

/-- One command (30_encoding.md R134). -/
inductive Instr where
  /-- `NOP` (OPC 0x00): 44_engine.md R400. -/
  | nop
  /-- `ENG_BEGIN` (OPC 0x01): 44_engine.md R403. -/
  | engBegin
  /-- `ENG_END` (OPC 0x02): 44_engine.md R405. -/
  | engEnd
  /-- `ENG_SET_CALLBACK` (OPC 0x03): 44_engine.md R406. -/
  | engSetCallback
  /-- `ENG_RETURN` (OPC 0x04): 44_engine.md R407. -/
  | engReturn
  /-- `PACC_SET_FREQ` (OPC 0x10): 41_phase_oscillator.md R210. -/
  | paccSetFreq (u : U8)
  /-- `PACC_SET_SR` (OPC 0x11): 41_phase_oscillator.md R211. -/
  | paccSetSr (u : U8)
  /-- `PACC_SET_PHASE` (OPC 0x12): 41_phase_oscillator.md R212. -/
  | paccSetPhase (u : U8)
  /-- `PACC_TICK` (OPC 0x13): 41_phase_oscillator.md R213. -/
  | paccTick (u : U8)
  /-- `PACC_GET` (OPC 0x14): 41_phase_oscillator.md R214. -/
  | paccGet (u : U8)
  /-- `OSC_SET_FREQ` (OPC 0x20): 41_phase_oscillator.md R220. -/
  | oscSetFreq (u : U8)
  /-- `OSC_SET_SR` (OPC 0x21): 41_phase_oscillator.md R221. -/
  | oscSetSr (u : U8)
  /-- `OSC_SET_PHASE` (OPC 0x22): 41_phase_oscillator.md R223. -/
  | oscSetPhase (u : U8)
  /-- `OSC_SET_AMP` (OPC 0x23): 41_phase_oscillator.md R224. -/
  | oscSetAmp (u : U8)
  /-- `OSC_SET_TABLE` (OPC 0x24): 41_phase_oscillator.md R222. -/
  | oscSetTable (u sel : U8)
  /-- `OSC_PROCESS` (OPC 0x25): 41_phase_oscillator.md R225. -/
  | oscProcess (u : U8)
  /-- `OSC_GET` (OPC 0x26): 41_phase_oscillator.md R226. -/
  | oscGet (u : U8)
  /-- `ONEPOLE_SET_CUTOFF` (OPC 0x30): 42_filters.md R251. -/
  | onepoleSetCutoff (u : U8)
  /-- `ONEPOLE_SET_SR` (OPC 0x31): 42_filters.md R252. -/
  | onepoleSetSr (u : U8)
  /-- `ONEPOLE_SET_MODE` (OPC 0x32): 42_filters.md R253. -/
  | onepoleSetMode (u sel : U8)
  /-- `ONEPOLE_PROCESS` (OPC 0x33): 42_filters.md R254. -/
  | onepoleProcess (u : U8)
  /-- `ONEPOLE_RESET` (OPC 0x34): 42_filters.md R255. -/
  | onepoleReset (u : U8)
  /-- `ONEPOLE_GET` (OPC 0x35): 42_filters.md R256. -/
  | onepoleGet (u : U8)
  /-- `SVF_SET_CUTOFF` (OPC 0x40): 42_filters.md R261. -/
  | svfSetCutoff (u : U8)
  /-- `SVF_SET_RES` (OPC 0x41): 42_filters.md R262. -/
  | svfSetRes (u : U8)
  /-- `SVF_SET_SR` (OPC 0x42): 42_filters.md R263. -/
  | svfSetSr (u : U8)
  /-- `SVF_PROCESS` (OPC 0x43): 42_filters.md R264. -/
  | svfProcess (u : U8)
  /-- `SVF_RESET` (OPC 0x44): 42_filters.md R265. -/
  | svfReset (u : U8)
  /-- `SVF_GET` (OPC 0x45): 42_filters.md R266. -/
  | svfGet (u : U8)
  /-- `BQ_SET_CUTOFF` (OPC 0x50): 42_filters.md R281. -/
  | bqSetCutoff (u : U8)
  /-- `BQ_SET_SR` (OPC 0x51): 42_filters.md R282. -/
  | bqSetSr (u : U8)
  /-- `BQ_SET_TYPE` (OPC 0x52): 42_filters.md R283. -/
  | bqSetType (u sel : U8)
  /-- `BQ_SET_COEFFS` (OPC 0x53): 42_filters.md R284. -/
  | bqSetCoeffs (u : U8)
  /-- `BQ_PROCESS` (OPC 0x54): 42_filters.md R285. -/
  | bqProcess (u : U8)
  /-- `BQ_RESET` (OPC 0x55): 42_filters.md R286. -/
  | bqReset (u : U8)
  /-- `BQ_GET` (OPC 0x56): 42_filters.md R287. -/
  | bqGet (u sel : U8)
  /-- `DC_PROCESS` (OPC 0x60): 42_filters.md R300. -/
  | dcProcess (u : U8)
  /-- `DC_RESET` (OPC 0x61): 42_filters.md R301. -/
  | dcReset (u : U8)
  /-- `DC_GET` (OPC 0x62): 42_filters.md R302. -/
  | dcGet (u : U8)
  /-- `ADSR_SET_ATTACK` (OPC 0x70): 43_envelopes.md R322. -/
  | adsrSetAttack (u : U8)
  /-- `ADSR_SET_DECAY` (OPC 0x71): 43_envelopes.md R323. -/
  | adsrSetDecay (u : U8)
  /-- `ADSR_SET_SUSTAIN` (OPC 0x72): 43_envelopes.md R324. -/
  | adsrSetSustain (u : U8)
  /-- `ADSR_SET_RELEASE` (OPC 0x73): 43_envelopes.md R325. -/
  | adsrSetRelease (u : U8)
  /-- `ADSR_SET_SR` (OPC 0x74): 43_envelopes.md R326. -/
  | adsrSetSr (u : U8)
  /-- `ADSR_NOTE_ON` (OPC 0x75): 43_envelopes.md R327. -/
  | adsrNoteOn (u : U8)
  /-- `ADSR_NOTE_OFF` (OPC 0x76): 43_envelopes.md R328. -/
  | adsrNoteOff (u : U8)
  /-- `ADSR_PROCESS` (OPC 0x77): 43_envelopes.md R329. -/
  | adsrProcess (u : U8)
  /-- `ADSR_GET` (OPC 0x78): 43_envelopes.md R330. -/
  | adsrGet (u sel : U8)
  /-- `AR_SET_ATTACK` (OPC 0x80): 43_envelopes.md R342. -/
  | arSetAttack (u : U8)
  /-- `AR_SET_RELEASE` (OPC 0x81): 43_envelopes.md R343. -/
  | arSetRelease (u : U8)
  /-- `AR_SET_SR` (OPC 0x82): 43_envelopes.md R344. -/
  | arSetSr (u : U8)
  /-- `AR_TRIGGER` (OPC 0x83): 43_envelopes.md R345. -/
  | arTrigger (u : U8)
  /-- `AR_PROCESS` (OPC 0x84): 43_envelopes.md R346. -/
  | arProcess (u : U8)
  /-- `AR_GET` (OPC 0x85): 43_envelopes.md R347. -/
  | arGet (u : U8)
  /-- `LFO_SET_FREQ` (OPC 0x90): 43_envelopes.md R363. -/
  | lfoSetFreq (u : U8)
  /-- `LFO_SET_SR` (OPC 0x91): 43_envelopes.md R364. -/
  | lfoSetSr (u : U8)
  /-- `LFO_SET_SHAPE` (OPC 0x92): 43_envelopes.md R365. -/
  | lfoSetShape (u sel : U8)
  /-- `LFO_SET_SEED` (OPC 0x93): 43_envelopes.md R366. -/
  | lfoSetSeed (u : U8)
  /-- `LFO_PROCESS` (OPC 0x94): 43_envelopes.md R367. -/
  | lfoProcess (u : U8)
  /-- `LFO_GET` (OPC 0x95): 43_envelopes.md R368. -/
  | lfoGet (u : U8)
  /-- `WT_LOOKUP` (OPC 0xA0): 41_phase_oscillator.md R230. -/
  | wtLookup (sel : U8)
  deriving DecidableEq, Repr

end Sys2Proof
end

