-- ==== Sys2Proof/Decode.lean ====
section
/-! DEFINITION. Decoding a command word, and encoding one (30_encoding.md R130, R134 to R138). The decoder
makes the first checks of R136, those that read the word alone: the opcode, the reserved bits, and UNIT = 0
for the kinds 0x0 and 0xA. -/

namespace Sys2Proof

/-- `OPC`, bits 31 to 24 (30_encoding.md R130). -/
def wordOpc (w : U32) : U8 := w.extractLsb' 24 8

/-- `UNIT`, bits 23 to 16. -/
def wordUnit (w : U32) : U8 := w.extractLsb' 16 8

/-- `SEL`, bits 15 to 8. -/
def wordSel (w : U32) : U8 := w.extractLsb' 8 8

/-- `RSV`, bits 7 to 0. -/
def wordRsv (w : U32) : U8 := w.extractLsb' 0 8

/-- Which fields a row of the opcode map leaves free (30_encoding.md R131, R133). -/
inductive Shape where
  /-- No field: SEL and UNIT must be 0. -/
  | bare (i : Instr)
  /-- UNIT: SEL must be 0. -/
  | unit (f : U8 → Instr)
  /-- UNIT and SEL. -/
  | unitSel (f : U8 → U8 → Instr)
  /-- SEL: UNIT must be 0. -/
  | sel (f : U8 → Instr)

/-- The opcode map of 30_encoding.md R134, by the value of `OPC`. -/
def opcodeMap : Nat → Option Shape
  | 0x00 => some (.bare .nop)
  | 0x01 => some (.bare .engBegin)
  | 0x02 => some (.bare .engEnd)
  | 0x03 => some (.bare .engSetCallback)
  | 0x04 => some (.bare .engReturn)
  | 0x10 => some (.unit .paccSetFreq)
  | 0x11 => some (.unit .paccSetSr)
  | 0x12 => some (.unit .paccSetPhase)
  | 0x13 => some (.unit .paccTick)
  | 0x14 => some (.unit .paccGet)
  | 0x20 => some (.unit .oscSetFreq)
  | 0x21 => some (.unit .oscSetSr)
  | 0x22 => some (.unit .oscSetPhase)
  | 0x23 => some (.unit .oscSetAmp)
  | 0x24 => some (.unitSel .oscSetTable)
  | 0x25 => some (.unit .oscProcess)
  | 0x26 => some (.unit .oscGet)
  | 0x30 => some (.unit .onepoleSetCutoff)
  | 0x31 => some (.unit .onepoleSetSr)
  | 0x32 => some (.unitSel .onepoleSetMode)
  | 0x33 => some (.unit .onepoleProcess)
  | 0x34 => some (.unit .onepoleReset)
  | 0x35 => some (.unit .onepoleGet)
  | 0x40 => some (.unit .svfSetCutoff)
  | 0x41 => some (.unit .svfSetRes)
  | 0x42 => some (.unit .svfSetSr)
  | 0x43 => some (.unit .svfProcess)
  | 0x44 => some (.unit .svfReset)
  | 0x45 => some (.unit .svfGet)
  | 0x50 => some (.unit .bqSetCutoff)
  | 0x51 => some (.unit .bqSetSr)
  | 0x52 => some (.unitSel .bqSetType)
  | 0x53 => some (.unit .bqSetCoeffs)
  | 0x54 => some (.unit .bqProcess)
  | 0x55 => some (.unit .bqReset)
  | 0x56 => some (.unitSel .bqGet)
  | 0x60 => some (.unit .dcProcess)
  | 0x61 => some (.unit .dcReset)
  | 0x62 => some (.unit .dcGet)
  | 0x70 => some (.unit .adsrSetAttack)
  | 0x71 => some (.unit .adsrSetDecay)
  | 0x72 => some (.unit .adsrSetSustain)
  | 0x73 => some (.unit .adsrSetRelease)
  | 0x74 => some (.unit .adsrSetSr)
  | 0x75 => some (.unit .adsrNoteOn)
  | 0x76 => some (.unit .adsrNoteOff)
  | 0x77 => some (.unit .adsrProcess)
  | 0x78 => some (.unitSel .adsrGet)
  | 0x80 => some (.unit .arSetAttack)
  | 0x81 => some (.unit .arSetRelease)
  | 0x82 => some (.unit .arSetSr)
  | 0x83 => some (.unit .arTrigger)
  | 0x84 => some (.unit .arProcess)
  | 0x85 => some (.unit .arGet)
  | 0x90 => some (.unit .lfoSetFreq)
  | 0x91 => some (.unit .lfoSetSr)
  | 0x92 => some (.unitSel .lfoSetShape)
  | 0x93 => some (.unit .lfoSetSeed)
  | 0x94 => some (.unit .lfoProcess)
  | 0x95 => some (.unit .lfoGet)
  | 0xA0 => some (.sel .wtLookup)
  | _ => none

/-- Decoding (30_encoding.md R136, its first four lines): the error is the first check that fails. -/
def decode (w : U32) : Except CmdError Instr :=
  match opcodeMap (wordOpc w).toNat with
  | none => .error .illegalOpcode
  | some shape =>
    if wordRsv w ≠ 0#8 then .error .reservedBits
    else match shape with
      | .bare i =>
        if wordSel w ≠ 0#8 then .error .reservedBits
        else if wordUnit w ≠ 0#8 then .error .badUnit
        else .ok i
      | .unit f => if wordSel w ≠ 0#8 then .error .reservedBits else .ok (f (wordUnit w))
      | .unitSel f => .ok (f (wordUnit w) (wordSel w))
      | .sel f => if wordUnit w ≠ 0#8 then .error .badUnit else .ok (f (wordSel w))

/-- The word `{OPC, UNIT, SEL, 0x00}` (30_encoding.md R130, R139). -/
def word (opc unit sel : U8) : U32 := opc ++ unit ++ sel ++ 0x00#8

/-- The word of a command (30_encoding.md R130, R134). -/
def encode : Instr → U32
  | .nop => word 0x00#8 0x00#8 0x00#8
  | .engBegin => word 0x01#8 0x00#8 0x00#8
  | .engEnd => word 0x02#8 0x00#8 0x00#8
  | .engSetCallback => word 0x03#8 0x00#8 0x00#8
  | .engReturn => word 0x04#8 0x00#8 0x00#8
  | .paccSetFreq u => word 0x10#8 u 0x00#8
  | .paccSetSr u => word 0x11#8 u 0x00#8
  | .paccSetPhase u => word 0x12#8 u 0x00#8
  | .paccTick u => word 0x13#8 u 0x00#8
  | .paccGet u => word 0x14#8 u 0x00#8
  | .oscSetFreq u => word 0x20#8 u 0x00#8
  | .oscSetSr u => word 0x21#8 u 0x00#8
  | .oscSetPhase u => word 0x22#8 u 0x00#8
  | .oscSetAmp u => word 0x23#8 u 0x00#8
  | .oscSetTable u sel => word 0x24#8 u sel
  | .oscProcess u => word 0x25#8 u 0x00#8
  | .oscGet u => word 0x26#8 u 0x00#8
  | .onepoleSetCutoff u => word 0x30#8 u 0x00#8
  | .onepoleSetSr u => word 0x31#8 u 0x00#8
  | .onepoleSetMode u sel => word 0x32#8 u sel
  | .onepoleProcess u => word 0x33#8 u 0x00#8
  | .onepoleReset u => word 0x34#8 u 0x00#8
  | .onepoleGet u => word 0x35#8 u 0x00#8
  | .svfSetCutoff u => word 0x40#8 u 0x00#8
  | .svfSetRes u => word 0x41#8 u 0x00#8
  | .svfSetSr u => word 0x42#8 u 0x00#8
  | .svfProcess u => word 0x43#8 u 0x00#8
  | .svfReset u => word 0x44#8 u 0x00#8
  | .svfGet u => word 0x45#8 u 0x00#8
  | .bqSetCutoff u => word 0x50#8 u 0x00#8
  | .bqSetSr u => word 0x51#8 u 0x00#8
  | .bqSetType u sel => word 0x52#8 u sel
  | .bqSetCoeffs u => word 0x53#8 u 0x00#8
  | .bqProcess u => word 0x54#8 u 0x00#8
  | .bqReset u => word 0x55#8 u 0x00#8
  | .bqGet u sel => word 0x56#8 u sel
  | .dcProcess u => word 0x60#8 u 0x00#8
  | .dcReset u => word 0x61#8 u 0x00#8
  | .dcGet u => word 0x62#8 u 0x00#8
  | .adsrSetAttack u => word 0x70#8 u 0x00#8
  | .adsrSetDecay u => word 0x71#8 u 0x00#8
  | .adsrSetSustain u => word 0x72#8 u 0x00#8
  | .adsrSetRelease u => word 0x73#8 u 0x00#8
  | .adsrSetSr u => word 0x74#8 u 0x00#8
  | .adsrNoteOn u => word 0x75#8 u 0x00#8
  | .adsrNoteOff u => word 0x76#8 u 0x00#8
  | .adsrProcess u => word 0x77#8 u 0x00#8
  | .adsrGet u sel => word 0x78#8 u sel
  | .arSetAttack u => word 0x80#8 u 0x00#8
  | .arSetRelease u => word 0x81#8 u 0x00#8
  | .arSetSr u => word 0x82#8 u 0x00#8
  | .arTrigger u => word 0x83#8 u 0x00#8
  | .arProcess u => word 0x84#8 u 0x00#8
  | .arGet u => word 0x85#8 u 0x00#8
  | .lfoSetFreq u => word 0x90#8 u 0x00#8
  | .lfoSetSr u => word 0x91#8 u 0x00#8
  | .lfoSetShape u sel => word 0x92#8 u sel
  | .lfoSetSeed u => word 0x93#8 u 0x00#8
  | .lfoProcess u => word 0x94#8 u 0x00#8
  | .lfoGet u => word 0x95#8 u 0x00#8
  | .wtLookup sel => word 0xA0#8 0x00#8 sel

/-- What the decoder reads from a row of spec/opcode_table.json: the low `nbits` bits of `w`, the bits
above them 0. Every command is one 32-bit word (30_encoding.md R138). -/
def decodeTableWord (nbits w : Nat) : Option Instr :=
  match decode (BitVec.ofNat 32 (w % 2 ^ nbits)) with
  | .ok i => some i
  | .error _ => none

end Sys2Proof
end

