-- ==== Sys2Proof/Machine/Ieee.lean ====
section
/-! DEFINITION. IEEE 754 arithmetic on bit patterns (00_scope.md R17 to R26): round to nearest even, nothing
fused, subnormals kept, canonical NaN. Everything is computed exactly on integers and rounded once.

A finite value is a whole number of UNITS, a unit being the least positive subnormal of the format
(2^-149 for binary32, 2^-1074 for binary64). Read by the same formula, the infinities' bit pattern is the
number of units just above every finite value, so that one comparison of integers serves all non-NaN values. -/

namespace Sys2Proof.Machine

/-! ### Formats and magnitudes -/

/-- A binary interchange format: `mbits` trailing significand bits and `ebits` exponent bits. -/
structure Fmt where
  mbits : Nat
  ebits : Nat
  deriving DecidableEq, Repr

/-- binary32 (00_scope.md R17). -/
def fmt32 : Fmt := ⟨23, 8⟩

/-- binary64 (00_scope.md R17). -/
def fmt64 : Fmt := ⟨52, 11⟩

/-- A value read as a sign and a magnitude field (the bits below the sign bit). -/
structure Fp where
  neg : Bool
  mag : Nat
  deriving DecidableEq, Repr

/-- The magnitude field of the infinities. -/
def Fmt.infMag (f : Fmt) : Nat := (2 ^ f.ebits - 1) * 2 ^ f.mbits

/-- The binary logarithm of how many units make 1.0. -/
def Fmt.unitLog (f : Fmt) : Nat := 2 ^ (f.ebits - 1) - 2 + f.mbits

/-- How many units a magnitude field stands for. -/
def magUnits (f : Fmt) (mag : Nat) : Nat :=
  if mag / 2 ^ f.mbits = 0 then mag % 2 ^ f.mbits
  else (mag % 2 ^ f.mbits + 2 ^ f.mbits) * 2 ^ (mag / 2 ^ f.mbits - 1)

/-- The whole number nearest to `n / d`, ties to even. -/
def divNearestEven (n d : Nat) : Nat :=
  if d < 2 * (n % d) ∨ (2 * (n % d) = d ∧ n / d % 2 = 1) then n / d + 1 else n / d

/-- How far the last significand bit of a value of `q` whole units lies above the unit. -/
def quantumLog (f : Fmt) (q : Nat) : Nat := Nat.log2 q - f.mbits

/-- The magnitude field nearest to `n / d` units, ties to even; too large a value gives infinity
(00_scope.md R18). The exponent and significand fields run on into one another, so that a significand that
rounds up to the next power of two needs no case of its own. -/
def roundMag (f : Fmt) (n d : Nat) : Nat :=
  min (quantumLog f (n / d) * 2 ^ f.mbits + divNearestEven n (d * 2 ^ quantumLog f (n / d))) f.infMag

namespace Fp

/-- The canonical quiet NaN (00_scope.md R19). -/
def nan (f : Fmt) : Fp := ⟨false, f.infMag + 2 ^ (f.mbits - 1)⟩

/-- `isNaN` (00_scope.md R20). -/
def isNaN (f : Fmt) (x : Fp) : Bool := decide (f.infMag < x.mag)

/-- The value is an infinity. -/
def isInf (f : Fmt) (x : Fp) : Bool := decide (x.mag = f.infMag)

/-- `isFinite` (00_scope.md R20). -/
def isFinite (f : Fmt) (x : Fp) : Bool := decide (x.mag < f.infMag)

/-- The value is +0.0 or -0.0. -/
def isZero (x : Fp) : Bool := decide (x.mag = 0)

/-- The value as a number of units. -/
def units (f : Fmt) (x : Fp) : Int :=
  if x.neg then -(magUnits f x.mag : Int) else (magUnits f x.mag : Int)

/-- The value nearest to `z / d` units; `zeroNeg` is the sign of an exact zero. -/
def ofUnits (f : Fmt) (z : Int) (d : Nat) (zeroNeg : Bool) : Fp :=
  ⟨if z = 0 then zeroNeg else decide (z < 0), roundMag f z.natAbs d⟩

/-- `-x`: flips the sign bit (00_scope.md R20). -/
def negate (x : Fp) : Fp := ⟨!x.neg, x.mag⟩

/-- Addition (00_scope.md R18). An exact zero sum is -0.0 only where both operands are. -/
def add (f : Fmt) (x y : Fp) : Fp :=
  if x.isNaN f || y.isNaN f then nan f
  else if x.isInf f then (if y.isInf f && (x.neg != y.neg) then nan f else x)
  else if y.isInf f then y
  else ofUnits f (x.units f + y.units f) 1 (x.neg && y.neg)

/-- Subtraction (00_scope.md R18). -/
def sub (f : Fmt) (x y : Fp) : Fp := add f x y.negate

/-- Multiplication (00_scope.md R18). -/
def mul (f : Fmt) (x y : Fp) : Fp :=
  if x.isNaN f || y.isNaN f then nan f
  else if x.isInf f || y.isInf f then
    (if x.isZero || y.isZero then nan f else ⟨x.neg != y.neg, f.infMag⟩)
  else ⟨x.neg != y.neg, roundMag f (magUnits f x.mag * magUnits f y.mag) (2 ^ f.unitLog)⟩

/-- Division (00_scope.md R18). -/
def div (f : Fmt) (x y : Fp) : Fp :=
  if x.isNaN f || y.isNaN f then nan f
  else if x.isInf f then (if y.isInf f then nan f else ⟨x.neg != y.neg, f.infMag⟩)
  else if y.isInf f then ⟨x.neg != y.neg, 0⟩
  else if y.isZero then (if x.isZero then nan f else ⟨x.neg != y.neg, f.infMag⟩)
  else ⟨x.neg != y.neg, roundMag f (magUnits f x.mag * 2 ^ f.unitLog) (magUnits f y.mag)⟩

/-- `<`: false where an operand is a NaN (00_scope.md R20). -/
def lt (f : Fmt) (x y : Fp) : Bool :=
  !x.isNaN f && !y.isNaN f && decide (x.units f < y.units f)

/-- `<=`: false where an operand is a NaN (00_scope.md R20). -/
def le (f : Fmt) (x y : Fp) : Bool :=
  !x.isNaN f && !y.isNaN f && decide (x.units f ≤ y.units f)

/-- `floor(x)` of a finite value, an unbounded integer (00_scope.md R22). -/
def floor (f : Fmt) (x : Fp) : Int := x.units f / (2 ^ f.unitLog : Nat)

/-- The value nearest to an integer (00_scope.md R22). -/
def ofInt (f : Fmt) (z : Int) : Fp := ofUnits f (z * (2 ^ f.unitLog : Nat)) 1 false

end Fp

/-! ### binary32 -/

/-- The sign and magnitude of a binary32 pattern. -/
def unpack32 (x : F32) : Fp := ⟨x.msb, x.toNat % 2 ^ 31⟩

/-- The binary32 pattern of a sign and magnitude. -/
def pack32 (x : Fp) : F32 := BitVec.ofNat 32 (x.mag + if x.neg then 2 ^ 31 else 0)

/-- `+f32` (00_scope.md R18). -/
def addF32 (x y : F32) : F32 := pack32 (Fp.add fmt32 (unpack32 x) (unpack32 y))
/-- `-f32` (00_scope.md R18). -/
def subF32 (x y : F32) : F32 := pack32 (Fp.sub fmt32 (unpack32 x) (unpack32 y))
/-- `*f32` (00_scope.md R18). -/
def mulF32 (x y : F32) : F32 := pack32 (Fp.mul fmt32 (unpack32 x) (unpack32 y))
/-- `/f32` (00_scope.md R18). -/
def divF32 (x y : F32) : F32 := pack32 (Fp.div fmt32 (unpack32 x) (unpack32 y))
/-- `<` on binary32 (00_scope.md R20). -/
def ltF32 (x y : F32) : Bool := Fp.lt fmt32 (unpack32 x) (unpack32 y)
/-- `<=` on binary32 (00_scope.md R20); `x >= y` is `leF32 y x`. -/
def leF32 (x y : F32) : Bool := Fp.le fmt32 (unpack32 x) (unpack32 y)
/-- `isNaN` on binary32 (00_scope.md R20). -/
def isNaN32 (x : F32) : Bool := (unpack32 x).isNaN fmt32
/-- `isFinite` on binary32 (00_scope.md R20). -/
def isFinite32 (x : F32) : Bool := (unpack32 x).isFinite fmt32
/-- `-x` on binary32: flips the sign bit exactly (00_scope.md R20). -/
def negF32 (x : F32) : F32 := x ^^^ 0x80000000#32
/-- `|x|` on binary32: clears the sign bit (00_scope.md R20). -/
def absF32 (x : F32) : F32 := x &&& 0x7FFFFFFF#32
/-- `floor(x)` on binary32 (00_scope.md R22). -/
def floorF32 (x : F32) : Int := (unpack32 x).floor fmt32
/-- `f32(n)` of an integer, nearest even (00_scope.md R22). -/
def intToF32 (z : Int) : F32 := pack32 (Fp.ofInt fmt32 z)
/-- `i32toF32(w)`: the word as two's complement (00_scope.md R26). -/
def i32toF32 (w : U32) : F32 := intToF32 w.toInt
/-- `fl(floor(x))` (00_scope.md R22). -/
def flFloorF32 (x : F32) : F32 := intToF32 (floorF32 x)

/-! ### binary64 -/

/-- The sign and magnitude of a binary64 pattern. -/
def unpack64 (x : F64) : Fp := ⟨x.msb, x.toNat % 2 ^ 63⟩

/-- The binary64 pattern of a sign and magnitude. -/
def pack64 (x : Fp) : F64 := BitVec.ofNat 64 (x.mag + if x.neg then 2 ^ 63 else 0)

/-- `+f64` (00_scope.md R18). -/
def addF64 (x y : F64) : F64 := pack64 (Fp.add fmt64 (unpack64 x) (unpack64 y))
/-- `-f64` (00_scope.md R18). -/
def subF64 (x y : F64) : F64 := pack64 (Fp.sub fmt64 (unpack64 x) (unpack64 y))
/-- `*f64` (00_scope.md R18). -/
def mulF64 (x y : F64) : F64 := pack64 (Fp.mul fmt64 (unpack64 x) (unpack64 y))
/-- `/f64` (00_scope.md R18). -/
def divF64 (x y : F64) : F64 := pack64 (Fp.div fmt64 (unpack64 x) (unpack64 y))
/-- `<` on binary64 (00_scope.md R20). -/
def ltF64 (x y : F64) : Bool := Fp.lt fmt64 (unpack64 x) (unpack64 y)
/-- `<=` on binary64 (00_scope.md R20). -/
def leF64 (x y : F64) : Bool := Fp.le fmt64 (unpack64 x) (unpack64 y)
/-- `isFinite` on binary64 (00_scope.md R20). -/
def isFinite64 (x : F64) : Bool := (unpack64 x).isFinite fmt64
/-- The value is a zero of either sign: `x = 0.0` (00_scope.md R20). -/
def isZero64 (x : F64) : Bool := (unpack64 x).isZero
/-- `floor(x)` on binary64 (00_scope.md R22). -/
def floorF64 (x : F64) : Int := (unpack64 x).floor fmt64
/-- `f64(n)` of an integer, nearest even (00_scope.md R22). -/
def intToF64 (z : Int) : F64 := pack64 (Fp.ofInt fmt64 z)
/-- `fl(floor(x))` on binary64 (00_scope.md R22). -/
def flFloorF64 (x : F64) : F64 := intToF64 (floorF64 x)

/-! ### Conversions between the formats (00_scope.md R22) -/

/-- A value of the format `f` in the format `g`, nearest even; `n / d` is how many units of `g` make one
unit of `f`. A NaN gives the canonical NaN of `g` (DEDUCED from 92_eei_decisions.md D47, assumption 7). -/
def convertFp (f g : Fmt) (n d : Nat) (x : Fp) : Fp :=
  if x.isNaN f then Fp.nan g
  else if x.isInf f then ⟨x.neg, g.infMag⟩
  else ⟨x.neg, roundMag g (magUnits f x.mag * n) d⟩

/-- `f64(x)`: widens exactly (00_scope.md R22). -/
def widenF32 (x : F32) : F64 := pack64 (convertFp fmt32 fmt64 (2 ^ 925) 1 (unpack32 x))

/-- `f32(y)`: narrows, nearest even (00_scope.md R22). -/
def narrowF64 (x : F64) : F32 := pack32 (convertFp fmt64 fmt32 1 (2 ^ 925) (unpack64 x))

/-! ### Words of a binary64 (00_scope.md R14) -/

/-- `asF64(lo, hi)`. -/
def asF64 (lo hi : U32) : F64 := hi ++ lo
/-- `lo64(x)`. -/
def lo64 (x : F64) : U32 := x.extractLsb' 0 32
/-- `hi64(x)`. -/
def hi64 (x : F64) : U32 := x.extractLsb' 32 32
/-- `zext_32(v)` (00_scope.md R12). -/
def zext32 {n : Nat} (v : BitVec n) : U32 := v.setWidth 32

/-! ### Literals of the rules' pseudocode -/

/-- +0.0. -/
def zeroF32 : F32 := 0x00000000#32
/-- 0.5. -/
def halfF32 : F32 := 0x3F000000#32
/-- 1.0. -/
def oneF32 : F32 := 0x3F800000#32
/-- -1.0. -/
def negOneF32 : F32 := 0xBF800000#32
/-- 2.0. -/
def twoF32 : F32 := 0x40000000#32
/-- -2.0. -/
def negTwoF32 : F32 := 0xC0000000#32
/-- 3.0. -/
def threeF32 : F32 := 0x40400000#32
/-- 4.0. -/
def fourF32 : F32 := 0x40800000#32
/-- 2^-15. -/
def twoPowNeg15F32 : F32 := 0x38000000#32
/-- 2^-31. -/
def twoPowNeg31F32 : F32 := 0x30000000#32
/-- +0.0 in binary64. -/
def zeroF64 : F64 := 0x0000000000000000#64
/-- 1.0 in binary64. -/
def oneF64 : F64 := 0x3FF0000000000000#64

/-! ### Clamps (00_scope.md R21, R23, R24) -/

/-- `clampf(v, lo, hi)` (00_scope.md R21). -/
def clampf (v lo hi : F32) : F32 :=
  if isNaN32 v then lo else if ltF32 v lo then lo else if ltF32 hi v then hi else v

/-- `maxf(a, b)` (00_scope.md R24). -/
def maxf (a b : F32) : F32 := if isNaN32 a then b else if ltF32 a b then b else a

/-- `minf(a, b)` (00_scope.md R24). No command uses it. -/
def minf (a b : F32) : F32 := if isNaN32 a then b else if ltF32 b a then b else a

/-- `frac(x)` of a finite binary32 (00_scope.md R23). -/
def fracF32 (x : F32) : F32 := subF32 x (flFloorF32 x)

/-- `frac(x)` of a finite binary64 (00_scope.md R23). -/
def fracF64 (x : F64) : F64 := subF64 x (flFloorF64 x)

end Sys2Proof.Machine
end

