-- ==== Sys2Proof/Config.lean ====
section
/-! DEFINITION. What an implementation of the block fixes: the named parameters of 00_scope.md R8, the
open functions of R27, the agents' answers of R9 as free values, and the fixed constants of R10. -/

namespace Sys2Proof

namespace Config

/-! ### Open functions and free values: constants with no body -/

/-- `FN_EXP` (00_scope.md R8, R27): OPEN. A total function of its argument alone, nothing else is known
of it. -/
opaque fnExp : F32 → F32

/-- `FN_SIN` (00_scope.md R8, R27): OPEN. -/
opaque fnSin : F32 → F32

/-- `FN_COS` (00_scope.md R8, R27): OPEN. -/
opaque fnCos : F32 → F32

/-- `WT_DATA` (00_scope.md R8, R11): OPEN. The sample `i` of table `t` in the block that
`Sys2Proof.Machine.State.reset` describes. -/
opaque wtSample : Nat → Nat → BitVec 16

/-- An external agent's Boolean answer (00_scope.md R9): a draw under no law. The argument is how many
answers the block has asked for before (assumption 3). -/
opaque agentAnswer : Nat → Bool

/-! ### Parameters (00_scope.md R8) -/

/-- The parameters of 00_scope.md R8 that the block keeps for life: they are in every state, and no step
writes them. The unit counts are not here: the count of a kind is the number of its records
(assumption 2). -/
structure Params where
  /-- `BASE_ADDR`, the bus address of the register window (R8, 20_memory.md R100). -/
  baseAddr : Nat
  /-- `TABLE_SIZE`, samples per wavetable. -/
  tableSize : Nat
  /-- `WT_DATA`, one list of signed 16-bit samples for each table; `N_TABLES` is its length. -/
  wtData : List (List (BitVec 16))
  /-- `OUT_BITS`, the width of the transport's native sample code. -/
  outBits : Nat
  /-- `NEUTRAL`, the transport's `neutralValue()`. -/
  neutral : Nat
  deriving DecidableEq, Repr

/-- `N_TABLES`: how many wavetables the store holds (00_scope.md R8, R11). -/
def Params.nTables (p : Params) : Nat := p.wtData.length

/-- The unit counts `N_PACC` … `N_LFO` of 00_scope.md R8. -/
structure Counts where
  pacc : Nat
  osc : Nat
  onepole : Nat
  svf : Nat
  biquad : Nat
  dc : Nat
  adsr : Nat
  ar : Nat
  lfo : Nat
  deriving DecidableEq, Repr

/-- The constraints that 00_scope.md R8 puts on the parameters the block keeps. -/
abbrev Params.Valid (p : Params) : Prop :=
  p.baseAddr % 0x100 = 0 ∧ 2 ≤ p.tableSize ∧ p.tableSize ≤ 65536 ∧
  1 ≤ p.nTables ∧ p.nTables ≤ 255 ∧ (∀ t ∈ p.wtData, t.length = p.tableSize) ∧
  1 ≤ p.outBits ∧ p.outBits ≤ 16 ∧ p.neutral < 2 ^ p.outBits

/-- The constraints that 00_scope.md R8 puts on the unit counts. -/
abbrev Counts.Valid (n : Counts) : Prop :=
  n.pacc ≤ 255 ∧ n.osc ≤ 255 ∧ n.onepole ≤ 255 ∧ n.svf ≤ 255 ∧ n.biquad ≤ 255 ∧
  n.dc ≤ 255 ∧ n.adsr ≤ 255 ∧ n.ar ≤ 255 ∧ n.lfo ≤ 255

/-- The spec's default parameters (00_scope.md R8). `WT_DATA` is OPEN there, so its samples are the free
constant `wtSample`. `BASE_ADDR` is OPEN too: the window at address 0 is a DESIGN CHOICE (assumption 1). -/
def defaultParams : Params where
  baseAddr := 0
  tableSize := 256
  wtData := (List.range 6).map fun t => (List.range 256).map fun i => wtSample t i
  outBits := 8
  neutral := 2 ^ (8 - 1)

/-- The spec's default unit counts (00_scope.md R8). -/
def defaultCounts : Counts where
  pacc := 2
  osc := 4
  onepole := 2
  svf := 2
  biquad := 2
  dc := 1
  adsr := 2
  ar := 2
  lfo := 2

/-! ### Fixed constants (00_scope.md R10) -/

/-- `UNIT_SR_MIN` = 1000.0. -/
def unitSrMin : F32 := 0x447A0000#32
/-- `UNIT_SR_MAX` = 1000000.0. -/
def unitSrMax : F32 := 0x49742400#32
/-- `SR_DEFAULT` = 22050.0. -/
def srDefault : F32 := 0x46AC4400#32
/-- `CUTOFF_MIN_HZ` = 20.0. -/
def cutoffMinHz : F32 := 0x41A00000#32
/-- `PI32`, the binary32 nearest π. -/
def pi32 : F32 := 0x40490FDB#32
/-- `TWO_PI32`, the binary32 nearest 2π. -/
def twoPi32 : F32 := 0x40C90FDB#32
/-- `SVF_RES_MIN` = 0.707106769. -/
def svfResMin : F32 := 0x3F3504F3#32
/-- `SVF_RES_MAX` = 20.0. -/
def svfResMax : F32 := 0x41A00000#32
/-- `SVF_F_MIN` = 0.0. -/
def svfFMin : F32 := 0x00000000#32
/-- `SVF_F_MAX` = 1.0. -/
def svfFMax : F32 := 0x3F800000#32
/-- `SVF_Q_MIN` = 0.0500000007. -/
def svfQMin : F32 := 0x3D4CCCCD#32
/-- `SVF_Q_MAX` = 1.41421354. -/
def svfQMax : F32 := 0x3FB504F3#32
/-- `SVF_SNAP` = 1e-15. -/
def svfSnap : F32 := 0x26901D7D#32
/-- `BQ_Q` = 0.707106769. -/
def bqQ : F32 := 0x3F3504F3#32
/-- `DC_R` = 0.995000005. -/
def dcR : F32 := 0x3F7EB852#32
/-- `ENV_TIME_MIN` = 0.001. -/
def envTimeMin : F32 := 0x3A83126F#32
/-- `ENV_INC_MIN` = 2^-24. -/
def envIncMin : F32 := 0x33800000#32
/-- `DEFAULT_SEED`. -/
def defaultSeed : U32 := 0x92D68CA2#32
/-- `ENG_RATE_MAX`. -/
def engRateMax : U32 := 2000000#32
/-- The identification constant of 00_scope.md R2, ASCII "KOE1". -/
def idValue : U32 := 0x4B4F4531#32

/-- Reset parameter values of 10_state.md R76: 1000.0 for every cutoff. -/
def cutoffDefault : F32 := 0x447A0000#32
/-- 0.01, the reset attack time (10_state.md R76). -/
def attackDefault : F32 := 0x3C23D70A#32
/-- 0.1, the reset decay time (10_state.md R76). -/
def decayDefault : F32 := 0x3DCCCCCD#32
/-- 0.5, the reset sustain level (10_state.md R76). -/
def sustainDefault : F32 := 0x3F000000#32
/-- 0.2, the reset release time (10_state.md R76). -/
def releaseDefault : F32 := 0x3E4CCCCD#32

end Config

end Sys2Proof
end

