-- ==== Sys2Proof/Machine/Records.lean ====
section
/-! DEFINITION. The unit records, the engine record, the register banks and the external agents' records
(10_state.md R57, R61 to R72): plain data, field by field as the spec lists them. -/

namespace Sys2Proof.Machine

/-- A phase accumulator record, `PaccState` (10_state.md R61). -/
structure PaccState where
  phase : F64
  inc : F64
  freq : F32
  sr : F32
  deriving DecidableEq, Repr

/-- An oscillator record (10_state.md R62). -/
structure OscState where
  acc : PaccState
  table : U8
  amp : F32
  deriving DecidableEq, Repr

/-- Which output of a one-pole filter `RES0` carries (10_state.md R63). -/
inductive OnePoleMode where
  | lowPass
  | highPass
  deriving DecidableEq, Repr

/-- A one-pole filter record (10_state.md R63). -/
structure OnePoleState where
  cutoff : F32
  sr : F32
  mode : OnePoleMode
  alpha : F32
  lp : F32
  deriving DecidableEq, Repr

/-- A state-variable filter record (10_state.md R64). -/
structure SvfState where
  cutoff : F32
  res : F32
  sr : F32
  f : F32
  q : F32
  low : F32
  band : F32
  high : F32
  notch : F32
  deriving DecidableEq, Repr

/-- The prototype a biquad's coefficients come from, or `direct` (10_state.md R65). -/
inductive BqType where
  | lowPass
  | highPass
  | bandPass
  | direct
  deriving DecidableEq, Repr

/-- A biquad record (10_state.md R65). -/
structure BiquadState where
  type : BqType
  cutoff : F32
  sr : F32
  b0 : F32
  b1 : F32
  b2 : F32
  a1 : F32
  a2 : F32
  x1 : F32
  x2 : F32
  y1 : F32
  y2 : F32
  deriving DecidableEq, Repr

/-- A DC-blocker record (10_state.md R66). -/
structure DcState where
  x1 : F32
  y1 : F32
  deriving DecidableEq, Repr

/-- The stages of an ADSR envelope (10_state.md R67). -/
inductive AdsrStage where
  | idle
  | attack
  | decay
  | sustain
  | release
  deriving DecidableEq, Repr

/-- An ADSR record (10_state.md R67). -/
structure AdsrState where
  stage : AdsrStage
  level : F32
  target : F32
  inc : F32
  attack : F32
  decay : F32
  sustain : F32
  release : F32
  sr : F32
  attackInc : F32
  decayInc : F32
  releaseInc : F32
  deriving DecidableEq, Repr

/-- The stages of an AR envelope (10_state.md R68). -/
inductive ArStage where
  | idle
  | attack
  | release
  deriving DecidableEq, Repr

/-- An AR record (10_state.md R68). -/
structure ArState where
  stage : ArStage
  level : F32
  inc : F32
  attack : F32
  release : F32
  sr : F32
  attackInc : F32
  releaseInc : F32
  deriving DecidableEq, Repr

/-- The shapes of an LFO (10_state.md R69). -/
inductive LfoShape where
  | sine
  | triangle
  | sawtooth
  | square
  | sampleHold
  | noise
  deriving DecidableEq, Repr

/-- An LFO record (10_state.md R69). -/
structure LfoState where
  acc : PaccState
  shape : LfoShape
  rng : U32
  held : F32
  out : F32
  deriving DecidableEq, Repr

/-- Every unit record of the block (10_state.md R50). The count of a kind is the number of its records. -/
structure Units where
  pacc : List PaccState
  osc : List OscState
  onepole : List OnePoleState
  svf : List SvfState
  biquad : List BiquadState
  dc : List DcState
  adsr : List AdsrState
  ar : List ArState
  lfo : List LfoState
  deriving DecidableEq, Repr

/-- The values of `eng.state` (10_state.md R70, 44_engine.md R401). -/
inductive EngPhase where
  | stopped
  | armed
  | inHandler
  deriving DecidableEq, Repr

/-- The engine record (10_state.md R70). `phase` is the spec's `eng.state`. -/
structure EngState where
  phase : EngPhase
  cb : U32
  rate : U32
  period : U32
  pin : U32
  deriving DecidableEq, Repr

/-- One bank of operand and result registers (10_state.md R57). -/
structure Bank where
  op0 : U32
  op1 : U32
  op2 : U32
  op3 : U32
  op4 : U32
  res0 : U32
  res1 : U32
  res2 : U32
  res3 : U32
  res4 : U32
  res5 : U32
  res6 : U32
  res7 : U32
  deriving DecidableEq, Repr

/-- The one-shot timer, as far as the spec gives its state (10_state.md R71). -/
inductive Timer where
  | disarmed
  /-- Armed once, for this many microseconds. -/
  | armed (us : U32)
  deriving DecidableEq, Repr

/-- A call the block made to an external agent, with the answer it drew (00_scope.md R15). -/
inductive AgentCall where
  | configure (pin rate : U32) (ok : Bool)
  | armOnce (us : U32) (ok : Bool)
  | cancel
  | write (code : Nat)
  deriving DecidableEq, Repr

/-- The transport, as far as the spec gives its state (10_state.md R71): what the last `configure` and the
last `write` left. -/
structure Transport where
  /-- The pin, the rate and the answer of the last `configure`. -/
  configured : Option (U32 × U32 × Bool)
  /-- The code of the last `write`. -/
  code : Option Nat
  deriving DecidableEq, Repr

/-- The width of a bus access (20_memory.md R103). -/
inductive AccessWidth where
  | bits8
  | bits16
  | bits32
  | bits64
  deriving DecidableEq, Repr

/-- When, while a step is executing, a timer expiry arrives (10_state.md R72). -/
inductive Arrival where
  /-- None arrives. -/
  | none
  /-- It arrives before the step's own effects. -/
  | early
  /-- It arrives after the step's own effects. -/
  | late
  deriving DecidableEq, Repr

/-- One access of the host's bus (20_memory.md R101, R103). `write` holds the value of a write and is `none`
for a read. -/
structure BusAccess where
  addr : Nat
  width : AccessWidth
  write : Option U32
  deriving DecidableEq, Repr

/-- What the outside does next, while no step is executing (00_scope.md R6, R9). -/
inductive Input where
  /-- The host makes an access. -/
  | bus (access : BusAccess)
  /-- The timer expires. -/
  | expire
  deriving DecidableEq, Repr

/-- What becomes of the block's next turn (10_state.md R72, 70_reset_and_hazards.md R500). -/
inductive Turn where
  /-- The block does its next step, whichever it is, and a timer expiry may arrive meanwhile. -/
  | work (expiry : Arrival)
  /-- The reset input is asserted before that step, whatever the state is. -/
  | reset
  deriving DecidableEq, Repr

/-- What lies outside the block: what it will do, and what the block did to it. -/
structure Env where
  /-- What the outside does next, oldest first (assumption 4). The model's own field. -/
  inputs : List Input
  /-- What becomes of the block's next turns, the next one first (assumption 4). The model's own field. -/
  turns : List Turn
  /-- The agents' next answers, oldest first (00_scope.md R9, assumption 3). The model's own field. -/
  answers : List Bool
  /-- How many answers were asked for (assumption 3). The model's own field. -/
  asked : Nat
  /-- The event history, oldest first (00_scope.md R15). -/
  events : List AgentCall
  /-- The timer (10_state.md R71). -/
  timer : Timer
  /-- The transport (10_state.md R71). -/
  transport : Transport
  /-- The data of the last read the block answered (20_memory.md R111, assumption 6). The model's own
  field. -/
  readData : Option U32
  deriving DecidableEq, Repr

end Sys2Proof.Machine
end

