-- ==== Sys2Proof/Machine/Derive.lean ====
section
/-! DEFINITION. What is derived from a unit's parameters: the accumulator's increment, the filters'
coefficients and the envelopes' increments (41_phase_oscillator.md R202, R203, 42_filters.md R245, R246,
R250, R260, R280, 43_envelopes.md R320, R321, R341). Every parameter setter ends in one of these, and so does
reset (10_state.md R77). -/

namespace Sys2Proof.Machine

/-- Nyquist: `sr *f32 0.5` (10_state.md R60). -/
def nyquist (sr : F32) : F32 := mulF32 sr halfF32

/-- The clamp of every sample-rate setter (42_filters.md R246, 10_state.md R60). -/
def clampSr (v : F32) : F32 := clampf v Config.unitSrMin Config.unitSrMax

/-- The clamp of every cutoff setter (42_filters.md R246). -/
def clampCutoff (v sr : F32) : F32 := clampf v Config.cutoffMinHz (nyquist sr)

/-! ### Phase accumulator -/

/-- `a.inc <- f64(a.freq) /f64 f64(a.sr)` (41_phase_oscillator.md R202). -/
def PaccState.derive (a : PaccState) : PaccState :=
  { a with inc := divF64 (widenF32 a.freq) (widenF32 a.sr) }

/-- `AccSetFreq(a, v)` (41_phase_oscillator.md R202). -/
def accSetFreq (a : PaccState) (v : F32) : PaccState :=
  PaccState.derive { a with freq := clampf v zeroF32 (nyquist a.sr) }

/-- `AccSetSR(a, v)` (41_phase_oscillator.md R203). -/
def accSetSr (a : PaccState) (v : F32) : PaccState :=
  PaccState.derive { a with sr := clampSr v, freq := clampf a.freq zeroF32 (nyquist (clampSr v)) }

/-! ### Filters -/

/-- `OnePoleDerive(o)` (42_filters.md R250). -/
def OnePoleState.derive (o : OnePoleState) : OnePoleState :=
  { o with alpha :=
      subF32 oneF32 (Config.fnExp (negF32 (divF32 (mulF32 Config.twoPi32 o.cutoff) o.sr))) }

/-- `SvfDerive(v)` (42_filters.md R260). -/
def SvfState.derive (v : SvfState) : SvfState :=
  { v with
    f := clampf (mulF32 twoF32 (Config.fnSin (divF32 (mulF32 Config.pi32 v.cutoff) v.sr)))
      Config.svfFMin Config.svfFMax
    q := clampf (divF32 oneF32 v.res) Config.svfQMin Config.svfQMax }

/-- The coefficients b0, b1, b2, a1, a2 of a prototype, from `cos(w0)` and `sin(w0)` (42_filters.md R280). -/
def bqCoeffs (b : BiquadState) (cs sn : F32) : BiquadState :=
  let al := divF32 sn (mulF32 twoF32 Config.bqQ)
  let a0 := addF32 oneF32 al
  let a1 := divF32 (mulF32 negTwoF32 cs) a0
  let a2 := divF32 (subF32 oneF32 al) a0
  match b.type with
  | .lowPass =>
    let b0 := divF32 (divF32 (subF32 oneF32 cs) twoF32) a0
    { b with b0 := b0, b1 := divF32 (subF32 oneF32 cs) a0, b2 := b0, a1 := a1, a2 := a2 }
  | .highPass =>
    let b0 := divF32 (divF32 (addF32 oneF32 cs) twoF32) a0
    { b with b0 := b0, b1 := divF32 (negF32 (addF32 oneF32 cs)) a0, b2 := b0, a1 := a1, a2 := a2 }
  | .bandPass =>
    let b0 := divF32 al a0
    { b with b0 := b0, b1 := zeroF32, b2 := negF32 b0, a1 := a1, a2 := a2 }
  | .direct => b

/-- `BqDerive(b)` (42_filters.md R280); a direct section keeps its coefficients (R281, R282). -/
def BiquadState.derive (b : BiquadState) : BiquadState :=
  let w0 := divF32 (mulF32 Config.twoPi32 b.cutoff) b.sr
  bqCoeffs b (Config.fnCos w0) (Config.fnSin w0)

/-! ### Envelopes -/

/-- `TimeFloor(v)` (43_envelopes.md R320). -/
def timeFloor (v : F32) : F32 :=
  if isNaN32 v || ltF32 v Config.envTimeMin then Config.envTimeMin else v

/-- `Inc(dL, t, sr)` (43_envelopes.md R321). -/
def envInc (dL t sr : F32) : F32 := maxf (divF32 dL (mulF32 t sr)) Config.envIncMin

/-- `AdsrDerive(e)` (43_envelopes.md R321). -/
def AdsrState.derive (e : AdsrState) : AdsrState :=
  { e with
    attackInc := envInc oneF32 e.attack e.sr
    decayInc := envInc (subF32 oneF32 e.sustain) e.decay e.sr
    releaseInc := envInc oneF32 e.release e.sr }

/-- `ArDerive(e)` (43_envelopes.md R341). -/
def ArState.derive (e : ArState) : ArState :=
  { e with
    attackInc := envInc oneF32 e.attack e.sr
    releaseInc := envInc oneF32 e.release e.sr }

/-! ### Reset records (10_state.md R76, R77) -/

/-- Every phase accumulator at reset. -/
def PaccState.reset : PaccState :=
  PaccState.derive { phase := zeroF64, inc := zeroF64, freq := zeroF32, sr := Config.srDefault }

/-- Every oscillator at reset. -/
def OscState.reset : OscState := { acc := PaccState.reset, table := 0#8, amp := oneF32 }

/-- Every one-pole filter at reset. -/
def OnePoleState.reset : OnePoleState :=
  OnePoleState.derive
    { cutoff := Config.cutoffDefault, sr := Config.srDefault, mode := .lowPass, alpha := zeroF32, lp := zeroF32 }

/-- Every state-variable filter at reset. -/
def SvfState.reset : SvfState :=
  SvfState.derive
    { cutoff := Config.cutoffDefault, res := Config.svfResMin, sr := Config.srDefault, f := zeroF32,
      q := zeroF32, low := zeroF32, band := zeroF32, high := zeroF32, notch := zeroF32 }

/-- Every biquad at reset. -/
def BiquadState.reset : BiquadState :=
  BiquadState.derive
    { type := .lowPass, cutoff := Config.cutoffDefault, sr := Config.srDefault, b0 := zeroF32,
      b1 := zeroF32, b2 := zeroF32, a1 := zeroF32, a2 := zeroF32, x1 := zeroF32, x2 := zeroF32,
      y1 := zeroF32, y2 := zeroF32 }

/-- Every DC blocker at reset. -/
def DcState.reset : DcState := { x1 := zeroF32, y1 := zeroF32 }

/-- Every ADSR envelope at reset. -/
def AdsrState.reset : AdsrState :=
  AdsrState.derive
    { stage := .idle, level := zeroF32, target := zeroF32, inc := zeroF32, attack := Config.attackDefault,
      decay := Config.decayDefault, sustain := Config.sustainDefault, release := Config.releaseDefault,
      sr := Config.srDefault, attackInc := zeroF32, decayInc := zeroF32, releaseInc := zeroF32 }

/-- Every AR envelope at reset. -/
def ArState.reset : ArState :=
  ArState.derive
    { stage := .idle, level := zeroF32, inc := zeroF32, attack := Config.attackDefault,
      release := Config.releaseDefault, sr := Config.srDefault, attackInc := zeroF32, releaseInc := zeroF32 }

/-- Every LFO at reset. -/
def LfoState.reset : LfoState :=
  { acc := PaccState.reset, shape := .sine, rng := Config.defaultSeed, held := zeroF32, out := zeroF32 }

/-- All units at reset, as many of each kind as `n` says (10_state.md R76). -/
def Units.reset (n : Config.Counts) : Units :=
  { pacc := List.replicate n.pacc PaccState.reset
    osc := List.replicate n.osc OscState.reset
    onepole := List.replicate n.onepole OnePoleState.reset
    svf := List.replicate n.svf SvfState.reset
    biquad := List.replicate n.biquad BiquadState.reset
    dc := List.replicate n.dc DcState.reset
    adsr := List.replicate n.adsr AdsrState.reset
    ar := List.replicate n.ar ArState.reset
    lfo := List.replicate n.lfo LfoState.reset }

/-- How many units of each kind there are (00_scope.md R8). -/
def Units.counts (u : Units) : Config.Counts :=
  { pacc := u.pacc.length, osc := u.osc.length, onepole := u.onepole.length, svf := u.svf.length,
    biquad := u.biquad.length, dc := u.dc.length, adsr := u.adsr.length, ar := u.ar.length,
    lfo := u.lfo.length }

/-- The engine at reset (10_state.md R75). -/
def EngState.reset : EngState := { phase := .stopped, cb := 0#32, rate := 0#32, period := 0#32, pin := 0#32 }

/-- A register bank at reset (10_state.md R74). -/
def Bank.reset : Bank :=
  { op0 := 0#32, op1 := 0#32, op2 := 0#32, op3 := 0#32, op4 := 0#32, res0 := 0#32, res1 := 0#32,
    res2 := 0#32, res3 := 0#32, res4 := 0#32, res5 := 0#32, res6 := 0#32, res7 := 0#32 }

end Sys2Proof.Machine
end

