-- ==== Sys2Proof/Machine/State.lean ====
section
/-! DEFINITION. The state of the block (10_state.md R50), the reasons a step can stop, and the state after
reset (70_reset_and_hazards.md R501). -/

namespace Sys2Proof.Machine

/-- The bits of STATUS that are state of their own (10_state.md R54). The other fields of STATUS show the
engine record. -/
structure Sticky where
  /-- LAST_ERR: the error of the most recent rejection, `none` since the last clear. -/
  lastErr : Option CmdError
  /-- ERR. -/
  err : Bool
  /-- REARM_FAIL. -/
  rearmFail : Bool
  /-- BEGIN_FAIL. -/
  beginFail : Bool
  deriving DecidableEq, Repr

/-- The block and, in `env`, its surroundings. -/
structure State where
  /-- The implementation's parameters, written by no step (00_scope.md R8). -/
  cfg : Config.Params
  /-- `bank[FG]` (10_state.md R57). -/
  fg : Bank
  /-- `bank[ISR]` (10_state.md R57). -/
  isr : Bank
  /-- The unit records (10_state.md R61 to R69). -/
  units : Units
  /-- The engine record (10_state.md R70). -/
  eng : EngState
  /-- The sticky bits of STATUS (10_state.md R54). -/
  sticky : Sticky
  /-- `expiryPending` (10_state.md R72). -/
  expiryPending : Bool
  /-- The external agents, the host and the event history. -/
  env : Env
  deriving DecidableEq, Repr

/-- Why the machine stops with a fault. The block raises no fault (60_exceptions.md R450, R454;
93_implementation_defined.md section 1), so there is none. -/
inductive Fault where
  deriving DecidableEq, Repr

/-- Why a step has no meaning. -/
inductive Refusal where
  /-- An instruction without a meaning. No arm of `exec` answers it. Safe. -/
  | notModelled (mnemonic : String)
  /-- A bus access of another width than 32 bits, or at an offset that is not a multiple of 4: the block
  answers with a bus error and "a model refuses such an access" (20_memory.md R103). Raised by
  `busAccess`. Safe. -/
  | busError
  deriving DecidableEq, Repr

/-- The sticky bits at reset (10_state.md R54). -/
def Sticky.reset : Sticky := { lastErr := none, err := false, rearmFail := false, beginFail := false }

/-- The surroundings before anything has happened (assumptions 3 to 6). -/
def Env.initial : Env :=
  { inputs := [], turns := [], answers := [], asked := 0, events := [], timer := .disarmed,
    transport := { configured := none, code := none }, readData := none }

/-- The state after reset of a block with these parameters and unit counts (70_reset_and_hazards.md R501). -/
def State.resetWith (p : Config.Params) (n : Config.Counts) : State :=
  { cfg := p, fg := Bank.reset, isr := Bank.reset, units := Units.reset n, eng := EngState.reset,
    sticky := Sticky.reset, expiryPending := false, env := Env.initial }

/-- The machine right after reset, with the spec's default parameters (00_scope.md R8,
70_reset_and_hazards.md R501). -/
def State.reset : State := State.resetWith Config.defaultParams Config.defaultCounts

end Sys2Proof.Machine
end

