-- ==== Sys2Proof/Machine/Ops.lean ====
section
/-! DEFINITION. The shared operations: the current bank, the unit records, the calls to the external agents,
the rejection of a command (60_exceptions.md R452), and taking a timer expiry and returning from the handler
(R465 to R471). -/

namespace Sys2Proof.Machine

/-! ### Context and banks (10_state.md R57, 60_exceptions.md R460, R466) -/

/-- The current context is `ISR` (60_exceptions.md R460). -/
def State.inIsr (s : State) : Bool := decide (s.eng.phase = .inHandler)

/-- The interrupt request line (60_exceptions.md R466). -/
def State.irq (s : State) : Bool := decide (s.eng.phase = .inHandler)

/-- The bank that every OP and RES access reaches (10_state.md R57). -/
def State.bank (s : State) : Bank := if s.inIsr then s.isr else s.fg

/-- Changes the current bank, and it alone (10_state.md R57). -/
def State.mapBank (s : State) (f : Bank → Bank) : State :=
  { s with fg := if s.inIsr then s.fg else f s.fg, isr := if s.inIsr then f s.isr else s.isr }

/-- `OP[k]` of a bank. -/
def Bank.op (b : Bank) : Fin 5 → U32
  | 0 => b.op0
  | 1 => b.op1
  | 2 => b.op2
  | 3 => b.op3
  | 4 => b.op4

/-- `OP[k] <- v`. -/
def Bank.setOp (b : Bank) (k : Fin 5) (v : U32) : Bank :=
  match k with
  | 0 => { b with op0 := v }
  | 1 => { b with op1 := v }
  | 2 => { b with op2 := v }
  | 3 => { b with op3 := v }
  | 4 => { b with op4 := v }

/-- `RES[k]` of a bank. -/
def Bank.res (b : Bank) : Fin 8 → U32
  | 0 => b.res0
  | 1 => b.res1
  | 2 => b.res2
  | 3 => b.res3
  | 4 => b.res4
  | 5 => b.res5
  | 6 => b.res6
  | 7 => b.res7

/-- `RES[k] <- v`. -/
def Bank.setRes (b : Bank) (k : Fin 8) (v : U32) : Bank :=
  match k with
  | 0 => { b with res0 := v }
  | 1 => { b with res1 := v }
  | 2 => { b with res2 := v }
  | 3 => { b with res3 := v }
  | 4 => { b with res4 := v }
  | 5 => { b with res5 := v }
  | 6 => { b with res6 := v }
  | 7 => { b with res7 := v }

/-- Writes the results `vs` to `RES0`, `RES1`, … of the current bank and leaves its other registers
(10_state.md R57). -/
def State.putRes (s : State) (vs : List U32) : State :=
  s.mapBank fun b =>
    { b with
      res0 := vs.getD 0 b.res0, res1 := vs.getD 1 b.res1, res2 := vs.getD 2 b.res2,
      res3 := vs.getD 3 b.res3, res4 := vs.getD 4 b.res4, res5 := vs.getD 5 b.res5,
      res6 := vs.getD 6 b.res6, res7 := vs.getD 7 b.res7 }

/-! ### Unit records -/

/-- Changes the unit records. -/
def State.mapUnits (s : State) (f : Units → Units) : State := { s with units := f s.units }

/-- `pacc[u] <- a`. -/
def State.putPacc (s : State) (u : U8) (a : PaccState) : State :=
  s.mapUnits fun x => { x with pacc := x.pacc.set u.toNat a }
/-- `osc[u] <- a`. -/
def State.putOsc (s : State) (u : U8) (a : OscState) : State :=
  s.mapUnits fun x => { x with osc := x.osc.set u.toNat a }
/-- `onepole[u] <- a`. -/
def State.putOnepole (s : State) (u : U8) (a : OnePoleState) : State :=
  s.mapUnits fun x => { x with onepole := x.onepole.set u.toNat a }
/-- `svf[u] <- a`. -/
def State.putSvf (s : State) (u : U8) (a : SvfState) : State :=
  s.mapUnits fun x => { x with svf := x.svf.set u.toNat a }
/-- `biquad[u] <- a`. -/
def State.putBiquad (s : State) (u : U8) (a : BiquadState) : State :=
  s.mapUnits fun x => { x with biquad := x.biquad.set u.toNat a }
/-- `dc[u] <- a`. -/
def State.putDc (s : State) (u : U8) (a : DcState) : State :=
  s.mapUnits fun x => { x with dc := x.dc.set u.toNat a }
/-- `adsr[u] <- a`. -/
def State.putAdsr (s : State) (u : U8) (a : AdsrState) : State :=
  s.mapUnits fun x => { x with adsr := x.adsr.set u.toNat a }
/-- `ar[u] <- a`. -/
def State.putAr (s : State) (u : U8) (a : ArState) : State :=
  s.mapUnits fun x => { x with ar := x.ar.set u.toNat a }
/-- `lfo[u] <- a`. -/
def State.putLfo (s : State) (u : U8) (a : LfoState) : State :=
  s.mapUnits fun x => { x with lfo := x.lfo.set u.toNat a }

/-! ### Rejecting a command (60_exceptions.md R450 to R453) -/

/-- `raise CmdError(c)`: the whole effect of a rejection (60_exceptions.md R452). -/
def State.reject (s : State) (c : CmdError) : State :=
  { s with sticky := { s.sticky with err := true, lastErr := some c } }

/-- The UNIT check of 30_encoding.md R136 and then the command's rule on the unit's record: `BAD_UNIT`
where the kind has no such instance. -/
def withUnit {α : Type} (records : List α) (u : U8) (s : State) (rule : α → State) : State :=
  match records[u.toNat]? with
  | some a => rule a
  | none => s.reject .badUnit

/-- The SEL check of 30_encoding.md R136 and then the command's rule: `BAD_SELECTOR` where `sel` stands for
no legal value. -/
def withSelector {α : Type} (sel : Option α) (s : State) (rule : α → State) : State :=
  match sel with
  | some x => rule x
  | none => s.reject .badSelector

/-- The context check of 30_encoding.md R136 for a command that is legal in `FG` alone
(60_exceptions.md R461). -/
def inFgOnly (s : State) (rule : State) : State := if s.inIsr then s.reject .context else rule

/-- The context check for the command that is legal in `ISR` alone (60_exceptions.md R461). -/
def inIsrOnly (s : State) (rule : State) : State := if s.inIsr then rule else s.reject .context

/-! ### Calls to the external agents (00_scope.md R9, R15, 10_state.md R71) -/

/-- Changes what lies outside the block. -/
def State.mapEnv (s : State) (f : Env → Env) : State := { s with env := f s.env }

/-- The block's next turn; with none in store it works and no expiry arrives (assumption 4). -/
def Env.turn (e : Env) : Turn := e.turns.headD (.work .none)

/-- The environment once that turn is taken. -/
def Env.nextTurn (e : Env) : Env := { e with turns := e.turns.tail }

/-- The agent's answer to the next question: the oldest one in store, or else a free value
(00_scope.md R9, assumption 3). -/
def Env.nextAnswer (e : Env) : Bool :=
  match e.answers with
  | b :: _ => b
  | [] => Config.agentAnswer e.asked

/-- The environment once the answer is used. -/
def Env.answered (e : Env) : Env := { e with answers := e.answers.tail, asked := e.asked + 1 }

/-- `Transport.configure(pin, rate) -> bool`: the answer, and the environment after the call. -/
def Env.configure (e : Env) (pin rate : U32) : Bool × Env :=
  (e.nextAnswer,
    { e.answered with
      events := e.events ++ [.configure pin rate e.nextAnswer]
      transport := { e.transport with configured := some (pin, rate, e.nextAnswer) } })

/-- `Timer.armOnce(us) -> bool`: the answer, and the environment after the call. -/
def Env.armOnce (e : Env) (us : U32) : Bool × Env :=
  (e.nextAnswer,
    { e.answered with
      events := e.events ++ [.armOnce us e.nextAnswer]
      timer := if e.nextAnswer then .armed us else e.timer })

/-- `Timer.cancel()`. -/
def Env.cancel (e : Env) : Env := { e with events := e.events ++ [.cancel], timer := .disarmed }

/-- `Transport.write(code)`. -/
def Env.write (e : Env) (code : Nat) : Env :=
  { e with events := e.events ++ [.write code], transport := { e.transport with code := some code } }

/-- `Transport.write(Transport.neutral)`. -/
def State.writeNeutral (s : State) : State := s.mapEnv fun e => e.write s.cfg.neutral

/-! ### The engine's shared operations -/

/-- `EngineStop()` (44_engine.md R404). -/
def State.engineStop (s : State) : State :=
  { s with
    expiryPending := false
    eng := EngState.reset
    env := (s.env.cancel).write s.cfg.neutral }

/-- `RearmFail()` (60_exceptions.md R470). -/
def State.rearmFail (s : State) : State :=
  { s with
    eng := EngState.reset
    sticky := { s.sticky with rearmFail := true }
    env := s.env.write s.cfg.neutral }

/-- The re-arm for one more period: the engine is ARMED if the timer accepts it, and stops if not
(44_engine.md R407, 60_exceptions.md R465, R468, R470). -/
def State.rearm (s : State) : State :=
  match s.env.armOnce s.eng.period with
  | (true, e) => { s with eng := { s.eng with phase := .armed }, env := e }
  | (false, e) => State.rearmFail { s with env := e }

/-! ### Taking an expiry, and returning (60_exceptions.md R465 to R471) -/

/-- An expiry arrives: the timer, one-shot, is disarmed by it (10_state.md R71). -/
def State.timerExpired (s : State) : State := s.mapEnv fun e => { e with timer := .disarmed }

/-- An expiry arrives while a step is executing: it is latched (10_state.md R72). -/
def State.latchExpiry (s : State) : State := { s.timerExpired with expiryPending := true }

/-- Handler entry saves nothing and changes `eng.state` alone (60_exceptions.md R467). -/
def State.enterHandler (s : State) : State := { s with eng := { s.eng with phase := .inHandler } }

/-- The first line of the expiry handling step: the latched expiry is being handled (60_exceptions.md R465). -/
def State.clearPending (s : State) : State := { s with expiryPending := false }

/-- The expiry handling step after its first line (60_exceptions.md R465, R471). An expiry that arrives while
it runs is latched and stays so (10_state.md R72). -/
def State.takeExpiry (s : State) : State :=
  if s.eng.phase ≠ .armed then s
  else if s.eng.cb = 0#32 then s.writeNeutral.rearm
  else s.enterHandler

/-- Handler return: the produced code is written and the timer re-armed (60_exceptions.md R468,
44_engine.md R407). -/
def State.returnFromHandler (s : State) (code : Nat) : State :=
  (s.mapEnv fun e => e.write code).rearm

/-! ### Reset (70_reset_and_hazards.md R500, R501) -/

/-- The reset input: every piece of block state takes its reset value, no agent is called, and what lies
outside the block stays as it is. -/
def State.blockReset (s : State) : State :=
  { State.resetWith s.cfg s.units.counts with env := s.env }

end Sys2Proof.Machine
end

