-- ==== Sys2Proof/Machine/Operands.lean ====
section
/-! DEFINITION. Operand assembly (30_encoding.md R132): the operand registers of the current bank, read as
each command's rule types them, and what a selector stands for (R133). -/

namespace Sys2Proof.Machine

/-- A `u32` operand: `OP[k]` of the current bank. -/
def State.opU32 (s : State) (k : Fin 5) : U32 := s.bank.op k

/-- An `f32` operand: `asF32(OP[k])`, a bit copy (00_scope.md R14). -/
def State.opF32 (s : State) (k : Fin 5) : F32 := s.bank.op k

/-- The `f64` operand `OP0:OP1`, low word in `OP0` (20_memory.md R102). -/
def State.opF64 (s : State) : F64 := asF64 (s.bank.op 0) (s.bank.op 1)

/-- The mode that SEL selects (30_encoding.md R133). -/
def onePoleModeOf (sel : U8) : Option OnePoleMode :=
  match sel.toNat with
  | 0 => some .lowPass
  | 1 => some .highPass
  | _ => none

/-- `onepole[u].mode` as a number (10_state.md R63). -/
def OnePoleMode.code : OnePoleMode → U32
  | .lowPass => 0#32
  | .highPass => 1#32

/-- The type that SEL selects: DIRECT is not among them (30_encoding.md R133, 42_filters.md R283). -/
def bqTypeOf (sel : U8) : Option BqType :=
  match sel.toNat with
  | 0 => some .lowPass
  | 1 => some .highPass
  | 2 => some .bandPass
  | _ => none

/-- `biquad[u].type` as a number (10_state.md R65). -/
def BqType.code : BqType → U32
  | .lowPass => 0#32
  | .highPass => 1#32
  | .bandPass => 2#32
  | .direct => 3#32

/-- The shape that SEL selects (30_encoding.md R133). -/
def lfoShapeOf (sel : U8) : Option LfoShape :=
  match sel.toNat with
  | 0 => some .sine
  | 1 => some .triangle
  | 2 => some .sawtooth
  | 3 => some .square
  | 4 => some .sampleHold
  | 5 => some .noise
  | _ => none

/-- `lfo[u].shape` as a number (10_state.md R69). -/
def LfoShape.code : LfoShape → U32
  | .sine => 0#32
  | .triangle => 1#32
  | .sawtooth => 2#32
  | .square => 3#32
  | .sampleHold => 4#32
  | .noise => 5#32

/-- `adsr[u].stage` as a number (10_state.md R67). -/
def AdsrStage.code : AdsrStage → U32
  | .idle => 0#32
  | .attack => 1#32
  | .decay => 2#32
  | .sustain => 3#32
  | .release => 4#32

/-- `ar[u].stage` as a number, with ADSR's codes (10_state.md R68). -/
def ArStage.code : ArStage → U32
  | .idle => 0#32
  | .attack => 1#32
  | .release => 4#32

/-- The page that SEL selects: page 1 is `true` (30_encoding.md R133). -/
def pageOf (sel : U8) : Option Bool :=
  match sel.toNat with
  | 0 => some false
  | 1 => some true
  | _ => none

/-- The table that SEL selects, of `n` (30_encoding.md R133). -/
def tableOf (n : Nat) (sel : U8) : Option U8 := if sel.toNat < n then some sel else none

end Sys2Proof.Machine
end

