-- ==== Sys2Proof/Machine/Engine.lean ====
section
/-! DEFINITION. The sample clock engine's commands (44_engine.md). Taking an expiry and returning from the
handler are in Machine/Ops.lean. -/

namespace Sys2Proof.Machine

/-- `Period(r)` in microseconds (44_engine.md R402), on unbounded integers. -/
def period (r : U32) : U32 := BitVec.ofNat 32 ((1000000 + r.toNat / 2) / r.toNat)

/-- The code of a finite sample in [-1, 1]: `min(floor((s + 1) · 2^(bits-1)), 2^bits - 1)`, exactly
(44_engine.md R408). -/
def quantizeExact (bits : Nat) (s : F32) : Nat :=
  min
    ((((unpack32 s).units fmt32 + (2 ^ fmt32.unitLog : Nat)) * (2 ^ (bits - 1) : Nat)
        / (2 ^ fmt32.unitLog : Nat)).toNat)
    (2 ^ bits - 1)

/-- `Quantize(s)` (44_engine.md R408). -/
def quantize (bits : Nat) (s : F32) : Nat :=
  quantizeExact bits (clampf (if isNaN32 s then zeroF32 else s) negOneF32 oneF32)

/-- A begin that failed: the engine is STOPPED, BEGIN_FAIL is set and `RES0` is 0 (44_engine.md R403). -/
def State.beginFail (s : State) : State :=
  State.putRes { s with eng := EngState.reset, sticky := { s.sticky with beginFail := true } } [0#32]

/-- The begin of a STOPPED engine (44_engine.md R403): configure the transport, then arm the timer. -/
def State.engBegin (s : State) (rate pin cb : U32) : State :=
  if rate = 0#32 ∨ Config.engRateMax < rate then s.beginFail
  else
    match s.env.configure pin rate with
    | (false, e) => State.beginFail { s with env := e }
    | (true, e) =>
      match e.armOnce (period rate) with
      | (false, e') => State.beginFail (State.writeNeutral { s with env := e' })
      | (true, e') =>
        State.putRes
          { s with
            env := e'
            eng := { phase := .armed, cb := cb, rate := rate, period := period rate, pin := pin } }
          [1#32]

/-- `NOP` (44_engine.md R400). -/
def execNop (s : State) : Host.Outcome State Fault Refusal := .next s

/-- `ENG_BEGIN` (44_engine.md R403): an engine that runs is stopped first. -/
def execEngBegin (s : State) : Host.Outcome State Fault Refusal :=
  .next (inFgOnly s
    (State.engBegin (if s.eng.phase ≠ .stopped then s.engineStop else s) (s.opU32 0) (s.opU32 1) (s.opU32 2)))

/-- `ENG_END` (44_engine.md R405). -/
def execEngEnd (s : State) : Host.Outcome State Fault Refusal :=
  .next (inFgOnly s
    (if s.eng.phase ≠ .stopped then s.engineStop else { s with eng := { s.eng with cb := 0#32 } }))

/-- `ENG_SET_CALLBACK` (44_engine.md R406). -/
def execEngSetCallback (s : State) : Host.Outcome State Fault Refusal :=
  .next (inFgOnly s { s with eng := { s.eng with cb := s.opU32 0 } })

/-- `ENG_RETURN` (44_engine.md R407, 60_exceptions.md R468). -/
def execEngReturn (s : State) : Host.Outcome State Fault Refusal :=
  .next (inIsrOnly s (s.returnFromHandler (quantize s.cfg.outBits (s.opF32 0))))

end Sys2Proof.Machine
end

