-- ==== Sys2Proof/Machine/Phase.lean ====
section
/-! DEFINITION. Phase accumulator, wavetable oscillator and wavetable lookup (41_phase_oscillator.md). -/

namespace Sys2Proof.Machine

/-! ### Primitives -/

/-- `PaccTick(a)` (41_phase_oscillator.md R200): the accumulator after the tick, the phase it returns and
whether it wrapped. -/
def paccTick (a : PaccState) : PaccState × F32 × Bool :=
  let sum := addF64 a.phase a.inc
  let wrapped := leF64 oneF64 sum
  let ph := if wrapped then subF64 sum oneF64 else sum
  ({ a with phase := ph }, narrowF64 ph, wrapped)

/-- `WT_DATA[t][i]` (00_scope.md R8, R11). -/
def wtData (p : Config.Params) (t i : Nat) : BitVec 16 := (p.wtData.getD t []).getD i 0#16

/-- `WT(t, i)` (00_scope.md R16). -/
def wtValue (p : Config.Params) (t i : Nat) : F32 :=
  mulF32 (intToF32 (wtData p t i).toInt) twoPowNeg15F32

/-- The first table index of `WtInterp`, `i0` (41_phase_oscillator.md R201). -/
def wtIndex (p : Config.Params) (x : F32) : Nat := (floorF32 x % (p.tableSize : Int)).toNat

/-- `WtInterp(t, x)` (41_phase_oscillator.md R201). -/
def wtInterp (p : Config.Params) (t : Nat) (x : F32) : F32 :=
  if isFinite32 x then
    let i0 := wtIndex p x
    let s0 := wtValue p t i0
    let s1 := wtValue p t ((i0 + 1) % p.tableSize)
    addF32 s0 (mulF32 (fracF32 x) (subF32 s1 s0))
  else zeroF32

/-- The phase that `AccSetPhase` stores (41_phase_oscillator.md R204). -/
def normalisePhase (p : F64) : F64 :=
  if isFinite64 p then
    let r := fracF64 p
    if leF64 oneF64 r then zeroF64 else if isZero64 r then zeroF64 else r
  else zeroF64

/-- `AccSetPhase(a, p)` (41_phase_oscillator.md R204). -/
def accSetPhase (a : PaccState) (p : F64) : PaccState := { a with phase := normalisePhase p }

/-! ### Phase accumulator commands -/

/-- `PACC_SET_FREQ u` (41_phase_oscillator.md R210). -/
def execPaccSetFreq (u : U8) (s : State) : Host.Outcome State Fault Refusal :=
  .next (withUnit s.units.pacc u s fun a => s.putPacc u (accSetFreq a (s.opF32 0)))

/-- `PACC_SET_SR u` (41_phase_oscillator.md R211). -/
def execPaccSetSr (u : U8) (s : State) : Host.Outcome State Fault Refusal :=
  .next (withUnit s.units.pacc u s fun a => s.putPacc u (accSetSr a (s.opF32 0)))

/-- `PACC_SET_PHASE u` (41_phase_oscillator.md R212). -/
def execPaccSetPhase (u : U8) (s : State) : Host.Outcome State Fault Refusal :=
  .next (withUnit s.units.pacc u s fun a => s.putPacc u (accSetPhase a s.opF64))

/-- `PACC_TICK u` (41_phase_oscillator.md R213). -/
def execPaccTick (u : U8) (s : State) : Host.Outcome State Fault Refusal :=
  .next (withUnit s.units.pacc u s fun a =>
    (s.putPacc u (paccTick a).1).putRes [(paccTick a).2.1])

/-- `PACC_GET u` (41_phase_oscillator.md R214). -/
def execPaccGet (u : U8) (s : State) : Host.Outcome State Fault Refusal :=
  .next (withUnit s.units.pacc u s fun a =>
    s.putRes [lo64 a.phase, hi64 a.phase, lo64 a.inc, hi64 a.inc, a.freq, a.sr])

/-! ### Oscillator commands -/

/-- `OSC_SET_FREQ u` (41_phase_oscillator.md R220). -/
def execOscSetFreq (u : U8) (s : State) : Host.Outcome State Fault Refusal :=
  .next (withUnit s.units.osc u s fun o =>
    s.putOsc u { o with acc := accSetFreq o.acc (s.opF32 0) })

/-- `OSC_SET_SR u` (41_phase_oscillator.md R221). -/
def execOscSetSr (u : U8) (s : State) : Host.Outcome State Fault Refusal :=
  .next (withUnit s.units.osc u s fun o =>
    s.putOsc u { o with acc := accSetSr o.acc (s.opF32 0) })

/-- `OSC_SET_PHASE u` (41_phase_oscillator.md R223). -/
def execOscSetPhase (u : U8) (s : State) : Host.Outcome State Fault Refusal :=
  .next (withUnit s.units.osc u s fun o => s.putOsc u { o with acc := accSetPhase o.acc s.opF64 })

/-- `OSC_SET_AMP u` (41_phase_oscillator.md R224). -/
def execOscSetAmp (u : U8) (s : State) : Host.Outcome State Fault Refusal :=
  .next (withUnit s.units.osc u s fun o =>
    s.putOsc u { o with amp := clampf (s.opF32 0) zeroF32 oneF32 })

/-- `OSC_SET_TABLE u, t` (41_phase_oscillator.md R222): the phase, frequency and amplitude stay. -/
def execOscSetTable (u sel : U8) (s : State) : Host.Outcome State Fault Refusal :=
  .next (withUnit s.units.osc u s fun o =>
    withSelector (tableOf s.cfg.nTables sel) s fun t => s.putOsc u { o with table := t })

/-- `OSC_PROCESS u` (41_phase_oscillator.md R225): the phase advances first. -/
def execOscProcess (u : U8) (s : State) : Host.Outcome State Fault Refusal :=
  .next (withUnit s.units.osc u s fun o =>
    let p := (paccTick o.acc).2.1
    let x := mulF32 p (intToF32 s.cfg.tableSize)
    let y := mulF32 (wtInterp s.cfg o.table.toNat x) o.amp
    (s.putOsc u { o with acc := (paccTick o.acc).1 }).putRes [y, p])

/-- `OSC_GET u` (41_phase_oscillator.md R226). -/
def execOscGet (u : U8) (s : State) : Host.Outcome State Fault Refusal :=
  .next (withUnit s.units.osc u s fun o =>
    s.putRes [lo64 o.acc.phase, hi64 o.acc.phase, lo64 o.acc.inc, hi64 o.acc.inc, o.acc.freq, o.acc.sr,
      o.amp, zext32 o.table])

/-! ### Wavetable store command -/

/-- `WT_LOOKUP t` (41_phase_oscillator.md R230). -/
def execWtLookup (sel : U8) (s : State) : Host.Outcome State Fault Refusal :=
  .next (withSelector (tableOf s.cfg.nTables sel) s fun t =>
    s.putRes [wtInterp s.cfg t.toNat (s.opF32 0)])

end Sys2Proof.Machine
end

