-- ==== Sys2Proof/Machine/Envelopes.lean ====
section
/-! DEFINITION. Envelopes and modulators: ADSR, AR and LFO (43_envelopes.md). -/

namespace Sys2Proof.Machine

/-! ### ADSR -/

/-- `ADSR_SET_ATTACK u` (43_envelopes.md R322). -/
def execAdsrSetAttack (u : U8) (s : State) : Host.Outcome State Fault Refusal :=
  .next (withUnit s.units.adsr u s fun e =>
    s.putAdsr u (AdsrState.derive { e with attack := timeFloor (s.opF32 0) }))

/-- `ADSR_SET_DECAY u` (43_envelopes.md R323). -/
def execAdsrSetDecay (u : U8) (s : State) : Host.Outcome State Fault Refusal :=
  .next (withUnit s.units.adsr u s fun e =>
    s.putAdsr u (AdsrState.derive { e with decay := timeFloor (s.opF32 0) }))

/-- `ADSR_SET_SUSTAIN u` (43_envelopes.md R324). -/
def execAdsrSetSustain (u : U8) (s : State) : Host.Outcome State Fault Refusal :=
  .next (withUnit s.units.adsr u s fun e =>
    s.putAdsr u (AdsrState.derive { e with sustain := clampf (s.opF32 0) zeroF32 oneF32 }))

/-- `ADSR_SET_RELEASE u` (43_envelopes.md R325). -/
def execAdsrSetRelease (u : U8) (s : State) : Host.Outcome State Fault Refusal :=
  .next (withUnit s.units.adsr u s fun e =>
    s.putAdsr u (AdsrState.derive { e with release := timeFloor (s.opF32 0) }))

/-- `ADSR_SET_SR u` (43_envelopes.md R326). -/
def execAdsrSetSr (u : U8) (s : State) : Host.Outcome State Fault Refusal :=
  .next (withUnit s.units.adsr u s fun e =>
    s.putAdsr u (AdsrState.derive { e with sr := clampSr (s.opF32 0) }))

/-- `ADSR_NOTE_ON u` (43_envelopes.md R327): the level is kept. -/
def execAdsrNoteOn (u : U8) (s : State) : Host.Outcome State Fault Refusal :=
  .next (withUnit s.units.adsr u s fun e =>
    s.putAdsr u { e with stage := .attack, target := oneF32, inc := e.attackInc })

/-- `ADSR_NOTE_OFF u` (43_envelopes.md R328): nothing in Idle. -/
def execAdsrNoteOff (u : U8) (s : State) : Host.Outcome State Fault Refusal :=
  .next (withUnit s.units.adsr u s fun e =>
    if e.stage = .idle then s
    else s.putAdsr u { e with stage := .release, target := zeroF32, inc := negF32 e.releaseInc })

/-- One tick of an ADSR envelope (43_envelopes.md R329): at most one stage transition. -/
def adsrTick (e : AdsrState) : AdsrState :=
  let level := addF32 e.level e.inc
  match e.stage with
  | .idle => e
  | .attack =>
    if leF32 oneF32 level then
      { e with level := oneF32, stage := .decay, target := e.sustain, inc := negF32 e.decayInc }
    else { e with level := level }
  | .decay =>
    if leF32 level e.target then { e with level := e.target, stage := .sustain, inc := zeroF32 }
    else { e with level := level }
  | .sustain => e
  | .release =>
    if leF32 level zeroF32 then
      { e with level := zeroF32, stage := .idle, target := zeroF32, inc := zeroF32 }
    else { e with level := level }

/-- `ADSR_PROCESS u` (43_envelopes.md R329). -/
def execAdsrProcess (u : U8) (s : State) : Host.Outcome State Fault Refusal :=
  .next (withUnit s.units.adsr u s fun e =>
    let e' := adsrTick e
    (s.putAdsr u e').putRes [e'.level, e'.stage.code])

/-- `ADSR_GET u, p` (43_envelopes.md R330). -/
def execAdsrGet (u sel : U8) (s : State) : Host.Outcome State Fault Refusal :=
  .next (withUnit s.units.adsr u s fun e =>
    withSelector (pageOf sel) s fun page =>
      if page then s.putRes [e.attackInc, e.decayInc, e.releaseInc, e.sr]
      else s.putRes [e.level, e.stage.code, e.target, e.inc, e.attack, e.decay, e.sustain, e.release])

/-! ### AR -/

/-- `AR_SET_ATTACK u` (43_envelopes.md R342). -/
def execArSetAttack (u : U8) (s : State) : Host.Outcome State Fault Refusal :=
  .next (withUnit s.units.ar u s fun e =>
    s.putAr u (ArState.derive { e with attack := timeFloor (s.opF32 0) }))

/-- `AR_SET_RELEASE u` (43_envelopes.md R343). -/
def execArSetRelease (u : U8) (s : State) : Host.Outcome State Fault Refusal :=
  .next (withUnit s.units.ar u s fun e =>
    s.putAr u (ArState.derive { e with release := timeFloor (s.opF32 0) }))

/-- `AR_SET_SR u` (43_envelopes.md R344). -/
def execArSetSr (u : U8) (s : State) : Host.Outcome State Fault Refusal :=
  .next (withUnit s.units.ar u s fun e =>
    s.putAr u (ArState.derive { e with sr := clampSr (s.opF32 0) }))

/-- `AR_TRIGGER u` (43_envelopes.md R345): the level is kept. -/
def execArTrigger (u : U8) (s : State) : Host.Outcome State Fault Refusal :=
  .next (withUnit s.units.ar u s fun e => s.putAr u { e with stage := .attack, inc := e.attackInc })

/-- One tick of an AR envelope (43_envelopes.md R346). -/
def arTick (e : ArState) : ArState :=
  let level := addF32 e.level e.inc
  match e.stage with
  | .idle => e
  | .attack =>
    if leF32 oneF32 level then
      { e with level := oneF32, stage := .release, inc := negF32 e.releaseInc }
    else { e with level := level }
  | .release =>
    if leF32 level zeroF32 then { e with level := zeroF32, stage := .idle, inc := zeroF32 }
    else { e with level := level }

/-- `AR_PROCESS u` (43_envelopes.md R346). -/
def execArProcess (u : U8) (s : State) : Host.Outcome State Fault Refusal :=
  .next (withUnit s.units.ar u s fun e =>
    let e' := arTick e
    (s.putAr u e').putRes [e'.level, e'.stage.code])

/-- `AR_GET u` (43_envelopes.md R347). -/
def execArGet (u : U8) (s : State) : Host.Outcome State Fault Refusal :=
  .next (withUnit s.units.ar u s fun e =>
    s.putRes [e.level, e.stage.code, e.inc, e.attack, e.release, e.attackInc, e.releaseInc, e.sr])

/-! ### LFO -/

/-- `XorShift(w)` (43_envelopes.md R360). -/
def xorShift (w : U32) : U32 :=
  let w1 := w ^^^ (w <<< 13)
  let w2 := w1 ^^^ (w1 >>> 17)
  w2 ^^^ (w2 <<< 5)

/-- The value `NextRandom` returns for the new generator state (43_envelopes.md R361). -/
def randomValue (rng : U32) : F32 := mulF32 (i32toF32 rng) twoPowNeg31F32

/-- The sine at phase `p` (43_envelopes.md R362). -/
def sineShape (p : F32) : F32 := Config.fnSin (mulF32 Config.twoPi32 p)

/-- The triangle at phase `p` (43_envelopes.md R362). -/
def triangleShape (p : F32) : F32 :=
  if ltF32 p halfF32 then subF32 (mulF32 fourF32 p) oneF32 else subF32 threeF32 (mulF32 fourF32 p)

/-- The sawtooth at phase `p` (43_envelopes.md R362). -/
def sawtoothShape (p : F32) : F32 := subF32 (mulF32 twoF32 p) oneF32

/-- The square at phase `p` (43_envelopes.md R362). -/
def squareShape (p : F32) : F32 := if ltF32 p halfF32 then oneF32 else negOneF32

/-- One tick of an LFO (43_envelopes.md R367). -/
def lfoTick (l : LfoState) : LfoState :=
  let acc := (paccTick l.acc).1
  let p := (paccTick l.acc).2.1
  let wrapped := (paccTick l.acc).2.2
  let rng := xorShift l.rng
  match l.shape with
  | .sampleHold =>
    if wrapped then { l with acc := acc, rng := rng, held := randomValue rng, out := randomValue rng }
    else { l with acc := acc, out := l.held }
  | .noise => { l with acc := acc, rng := rng, out := randomValue rng }
  | .sine => { l with acc := acc, out := sineShape p }
  | .triangle => { l with acc := acc, out := triangleShape p }
  | .sawtooth => { l with acc := acc, out := sawtoothShape p }
  | .square => { l with acc := acc, out := squareShape p }

/-- `LFO_SET_FREQ u` (43_envelopes.md R363). -/
def execLfoSetFreq (u : U8) (s : State) : Host.Outcome State Fault Refusal :=
  .next (withUnit s.units.lfo u s fun l =>
    s.putLfo u { l with acc := accSetFreq l.acc (s.opF32 0) })

/-- `LFO_SET_SR u` (43_envelopes.md R364). -/
def execLfoSetSr (u : U8) (s : State) : Host.Outcome State Fault Refusal :=
  .next (withUnit s.units.lfo u s fun l =>
    s.putLfo u { l with acc := accSetSr l.acc (s.opF32 0) })

/-- `LFO_SET_SHAPE u, s` (43_envelopes.md R365). -/
def execLfoSetShape (u sel : U8) (s : State) : Host.Outcome State Fault Refusal :=
  .next (withUnit s.units.lfo u s fun l =>
    withSelector (lfoShapeOf sel) s fun shape => s.putLfo u { l with shape := shape })

/-- `LFO_SET_SEED u` (43_envelopes.md R366). -/
def execLfoSetSeed (u : U8) (s : State) : Host.Outcome State Fault Refusal :=
  .next (withUnit s.units.lfo u s fun l =>
    s.putLfo u { l with rng := if s.opU32 0 = 0#32 then Config.defaultSeed else s.opU32 0 })

/-- `LFO_PROCESS u` (43_envelopes.md R367). -/
def execLfoProcess (u : U8) (s : State) : Host.Outcome State Fault Refusal :=
  .next (withUnit s.units.lfo u s fun l =>
    let l' := lfoTick l
    (s.putLfo u l').putRes [l'.out])

/-- `LFO_GET u` (43_envelopes.md R368). -/
def execLfoGet (u : U8) (s : State) : Host.Outcome State Fault Refusal :=
  .next (withUnit s.units.lfo u s fun l =>
    s.putRes [lo64 l.acc.phase, hi64 l.acc.phase, l.acc.freq, l.acc.sr, l.shape.code, l.rng, l.held, l.out])

end Sys2Proof.Machine
end

