-- ==== Sys2Proof/Machine/Filters.lean ====
section
/-! DEFINITION. The filters: one-pole, state-variable, biquad and DC blocker (42_filters.md). -/

namespace Sys2Proof.Machine

/-! ### One-pole -/

/-- `ONEPOLE_SET_CUTOFF u` (42_filters.md R251). -/
def execOnepoleSetCutoff (u : U8) (s : State) : Host.Outcome State Fault Refusal :=
  .next (withUnit s.units.onepole u s fun o =>
    s.putOnepole u (OnePoleState.derive { o with cutoff := clampCutoff (s.opF32 0) o.sr }))

/-- `ONEPOLE_SET_SR u` (42_filters.md R252). -/
def execOnepoleSetSr (u : U8) (s : State) : Host.Outcome State Fault Refusal :=
  .next (withUnit s.units.onepole u s fun o =>
    s.putOnepole u (OnePoleState.derive
      { o with sr := clampSr (s.opF32 0), cutoff := clampCutoff o.cutoff (clampSr (s.opF32 0)) }))

/-- `ONEPOLE_SET_MODE u, m` (42_filters.md R253). -/
def execOnepoleSetMode (u sel : U8) (s : State) : Host.Outcome State Fault Refusal :=
  .next (withUnit s.units.onepole u s fun o =>
    withSelector (onePoleModeOf sel) s fun m => s.putOnepole u { o with mode := m })

/-- The new low-pass output of a tick (42_filters.md R254). -/
def onePoleTick (o : OnePoleState) (x : F32) : F32 :=
  addF32 o.lp (mulF32 o.alpha (subF32 x o.lp))

/-- `ONEPOLE_PROCESS u` (42_filters.md R254). -/
def execOnepoleProcess (u : U8) (s : State) : Host.Outcome State Fault Refusal :=
  .next (withUnit s.units.onepole u s fun o =>
    let x := s.opF32 0
    let lp := onePoleTick o x
    let hp := subF32 x lp
    let primary := match o.mode with
      | .lowPass => lp
      | .highPass => hp
    (s.putOnepole u { o with lp := lp }).putRes [primary, lp, hp])

/-- `ONEPOLE_RESET u` (42_filters.md R255): the history alone. -/
def execOnepoleReset (u : U8) (s : State) : Host.Outcome State Fault Refusal :=
  .next (withUnit s.units.onepole u s fun o => s.putOnepole u { o with lp := zeroF32 })

/-- `ONEPOLE_GET u` (42_filters.md R256). -/
def execOnepoleGet (u : U8) (s : State) : Host.Outcome State Fault Refusal :=
  .next (withUnit s.units.onepole u s fun o => s.putRes [o.cutoff, o.sr, o.alpha, o.lp, o.mode.code])

/-! ### State-variable filter -/

/-- `SVF_SET_CUTOFF u` (42_filters.md R261). -/
def execSvfSetCutoff (u : U8) (s : State) : Host.Outcome State Fault Refusal :=
  .next (withUnit s.units.svf u s fun v =>
    s.putSvf u (SvfState.derive { v with cutoff := clampCutoff (s.opF32 0) v.sr }))

/-- `SVF_SET_RES u` (42_filters.md R262). -/
def execSvfSetRes (u : U8) (s : State) : Host.Outcome State Fault Refusal :=
  .next (withUnit s.units.svf u s fun v =>
    s.putSvf u (SvfState.derive
      { v with res := clampf (s.opF32 0) Config.svfResMin Config.svfResMax }))

/-- `SVF_SET_SR u` (42_filters.md R263). -/
def execSvfSetSr (u : U8) (s : State) : Host.Outcome State Fault Refusal :=
  .next (withUnit s.units.svf u s fun v =>
    s.putSvf u (SvfState.derive
      { v with sr := clampSr (s.opF32 0), cutoff := clampCutoff v.cutoff (clampSr (s.opF32 0)) }))

/-- The denormal suppression of an integrator (42_filters.md R264). -/
def svfSnapped (x : F32) : F32 := if ltF32 (absF32 x) Config.svfSnap then zeroF32 else x

/-- One tick of the state-variable filter (42_filters.md R264): `high` and the new `band` use the
integrator before it is snapped, `notch` uses the snapped `low`. -/
def svfTick (v : SvfState) (x : F32) : SvfState :=
  let low := addF32 v.low (mulF32 v.f v.band)
  let high := subF32 (subF32 x low) (mulF32 v.q v.band)
  let band := addF32 (mulF32 v.f high) v.band
  { v with
    low := svfSnapped low
    band := svfSnapped band
    high := high
    notch := addF32 high (svfSnapped low) }

/-- `SVF_PROCESS u` (42_filters.md R264). -/
def execSvfProcess (u : U8) (s : State) : Host.Outcome State Fault Refusal :=
  .next (withUnit s.units.svf u s fun v =>
    let v' := svfTick v (s.opF32 0)
    (s.putSvf u v').putRes [v'.low, v'.high, v'.band, v'.notch])

/-- `SVF_RESET u` (42_filters.md R265). -/
def execSvfReset (u : U8) (s : State) : Host.Outcome State Fault Refusal :=
  .next (withUnit s.units.svf u s fun v =>
    s.putSvf u { v with low := zeroF32, band := zeroF32, high := zeroF32, notch := zeroF32 })

/-- `SVF_GET u` (42_filters.md R266). -/
def execSvfGet (u : U8) (s : State) : Host.Outcome State Fault Refusal :=
  .next (withUnit s.units.svf u s fun v =>
    s.putRes [v.low, v.high, v.band, v.notch, v.cutoff, v.res, v.f, v.q])

/-! ### Biquad -/

/-- `BQ_SET_CUTOFF u` (42_filters.md R281). -/
def execBqSetCutoff (u : U8) (s : State) : Host.Outcome State Fault Refusal :=
  .next (withUnit s.units.biquad u s fun b =>
    s.putBiquad u (BiquadState.derive { b with cutoff := clampCutoff (s.opF32 0) b.sr }))

/-- `BQ_SET_SR u` (42_filters.md R282). -/
def execBqSetSr (u : U8) (s : State) : Host.Outcome State Fault Refusal :=
  .next (withUnit s.units.biquad u s fun b =>
    s.putBiquad u (BiquadState.derive
      { b with sr := clampSr (s.opF32 0), cutoff := clampCutoff b.cutoff (clampSr (s.opF32 0)) }))

/-- `BQ_SET_TYPE u, t` (42_filters.md R283). -/
def execBqSetType (u sel : U8) (s : State) : Host.Outcome State Fault Refusal :=
  .next (withUnit s.units.biquad u s fun b =>
    withSelector (bqTypeOf sel) s fun t => s.putBiquad u (BiquadState.derive { b with type := t }))

/-- `BQ_SET_COEFFS u` (42_filters.md R284): stored verbatim. -/
def execBqSetCoeffs (u : U8) (s : State) : Host.Outcome State Fault Refusal :=
  .next (withUnit s.units.biquad u s fun b =>
    s.putBiquad u
      { b with
        b0 := s.opF32 0, b1 := s.opF32 1, b2 := s.opF32 2, a1 := s.opF32 3, a2 := s.opF32 4,
        type := .direct })

/-- The output of a biquad tick (42_filters.md R285). -/
def bqOutput (b : BiquadState) (x : F32) : F32 :=
  subF32
    (subF32
      (addF32 (addF32 (mulF32 b.b0 x) (mulF32 b.b1 b.x1)) (mulF32 b.b2 b.x2))
      (mulF32 b.a1 b.y1))
    (mulF32 b.a2 b.y2)

/-- `BQ_PROCESS u` (42_filters.md R285). -/
def execBqProcess (u : U8) (s : State) : Host.Outcome State Fault Refusal :=
  .next (withUnit s.units.biquad u s fun b =>
    let x := s.opF32 0
    let y := bqOutput b x
    (s.putBiquad u { b with x2 := b.x1, x1 := x, y2 := b.y1, y1 := y }).putRes [y])

/-- `BQ_RESET u` (42_filters.md R286). -/
def execBqReset (u : U8) (s : State) : Host.Outcome State Fault Refusal :=
  .next (withUnit s.units.biquad u s fun b =>
    s.putBiquad u { b with x1 := zeroF32, x2 := zeroF32, y1 := zeroF32, y2 := zeroF32 })

/-- `BQ_GET u, p` (42_filters.md R287). -/
def execBqGet (u sel : U8) (s : State) : Host.Outcome State Fault Refusal :=
  .next (withUnit s.units.biquad u s fun b =>
    withSelector (pageOf sel) s fun page =>
      if page then s.putRes [b.x1, b.x2, b.y1, b.y2]
      else s.putRes [b.b0, b.b1, b.b2, b.a1, b.a2, b.cutoff, b.sr, b.type.code])

/-! ### DC blocker -/

/-- The output of a DC-blocker tick (42_filters.md R300). -/
def dcOutput (d : DcState) (x : F32) : F32 := addF32 (subF32 x d.x1) (mulF32 Config.dcR d.y1)

/-- `DC_PROCESS u` (42_filters.md R300). -/
def execDcProcess (u : U8) (s : State) : Host.Outcome State Fault Refusal :=
  .next (withUnit s.units.dc u s fun d =>
    let x := s.opF32 0
    let y := dcOutput d x
    (s.putDc u { x1 := x, y1 := y }).putRes [y])

/-- `DC_RESET u` (42_filters.md R301). -/
def execDcReset (u : U8) (s : State) : Host.Outcome State Fault Refusal :=
  .next (withUnit s.units.dc u s fun _ => s.putDc u { x1 := zeroF32, y1 := zeroF32 })

/-- `DC_GET u` (42_filters.md R302). -/
def execDcGet (u : U8) (s : State) : Host.Outcome State Fault Refusal :=
  .next (withUnit s.units.dc u s fun d => s.putRes [d.x1, d.y1])

end Sys2Proof.Machine
end

