-- ==== Sys2Proof/Machine/Dispatch.lean ====
section
/-! DEFINITION. Which meaning each command runs: one arm for each row of the opcode map (30_encoding.md
R134). -/

namespace Sys2Proof.Machine

/-- The effect of one command (30_encoding.md R136: its value checks, its context check and its rule). -/
def exec (i : Instr) (s : State) : Host.Outcome State Fault Refusal :=
  match i with
  | .nop => Sys2Proof.Machine.execNop s
  | .engBegin => Sys2Proof.Machine.execEngBegin s
  | .engEnd => Sys2Proof.Machine.execEngEnd s
  | .engSetCallback => Sys2Proof.Machine.execEngSetCallback s
  | .engReturn => Sys2Proof.Machine.execEngReturn s
  | .paccSetFreq u => Sys2Proof.Machine.execPaccSetFreq u s
  | .paccSetSr u => Sys2Proof.Machine.execPaccSetSr u s
  | .paccSetPhase u => Sys2Proof.Machine.execPaccSetPhase u s
  | .paccTick u => Sys2Proof.Machine.execPaccTick u s
  | .paccGet u => Sys2Proof.Machine.execPaccGet u s
  | .oscSetFreq u => Sys2Proof.Machine.execOscSetFreq u s
  | .oscSetSr u => Sys2Proof.Machine.execOscSetSr u s
  | .oscSetPhase u => Sys2Proof.Machine.execOscSetPhase u s
  | .oscSetAmp u => Sys2Proof.Machine.execOscSetAmp u s
  | .oscSetTable u sel => Sys2Proof.Machine.execOscSetTable u sel s
  | .oscProcess u => Sys2Proof.Machine.execOscProcess u s
  | .oscGet u => Sys2Proof.Machine.execOscGet u s
  | .onepoleSetCutoff u => Sys2Proof.Machine.execOnepoleSetCutoff u s
  | .onepoleSetSr u => Sys2Proof.Machine.execOnepoleSetSr u s
  | .onepoleSetMode u sel => Sys2Proof.Machine.execOnepoleSetMode u sel s
  | .onepoleProcess u => Sys2Proof.Machine.execOnepoleProcess u s
  | .onepoleReset u => Sys2Proof.Machine.execOnepoleReset u s
  | .onepoleGet u => Sys2Proof.Machine.execOnepoleGet u s
  | .svfSetCutoff u => Sys2Proof.Machine.execSvfSetCutoff u s
  | .svfSetRes u => Sys2Proof.Machine.execSvfSetRes u s
  | .svfSetSr u => Sys2Proof.Machine.execSvfSetSr u s
  | .svfProcess u => Sys2Proof.Machine.execSvfProcess u s
  | .svfReset u => Sys2Proof.Machine.execSvfReset u s
  | .svfGet u => Sys2Proof.Machine.execSvfGet u s
  | .bqSetCutoff u => Sys2Proof.Machine.execBqSetCutoff u s
  | .bqSetSr u => Sys2Proof.Machine.execBqSetSr u s
  | .bqSetType u sel => Sys2Proof.Machine.execBqSetType u sel s
  | .bqSetCoeffs u => Sys2Proof.Machine.execBqSetCoeffs u s
  | .bqProcess u => Sys2Proof.Machine.execBqProcess u s
  | .bqReset u => Sys2Proof.Machine.execBqReset u s
  | .bqGet u sel => Sys2Proof.Machine.execBqGet u sel s
  | .dcProcess u => Sys2Proof.Machine.execDcProcess u s
  | .dcReset u => Sys2Proof.Machine.execDcReset u s
  | .dcGet u => Sys2Proof.Machine.execDcGet u s
  | .adsrSetAttack u => Sys2Proof.Machine.execAdsrSetAttack u s
  | .adsrSetDecay u => Sys2Proof.Machine.execAdsrSetDecay u s
  | .adsrSetSustain u => Sys2Proof.Machine.execAdsrSetSustain u s
  | .adsrSetRelease u => Sys2Proof.Machine.execAdsrSetRelease u s
  | .adsrSetSr u => Sys2Proof.Machine.execAdsrSetSr u s
  | .adsrNoteOn u => Sys2Proof.Machine.execAdsrNoteOn u s
  | .adsrNoteOff u => Sys2Proof.Machine.execAdsrNoteOff u s
  | .adsrProcess u => Sys2Proof.Machine.execAdsrProcess u s
  | .adsrGet u sel => Sys2Proof.Machine.execAdsrGet u sel s
  | .arSetAttack u => Sys2Proof.Machine.execArSetAttack u s
  | .arSetRelease u => Sys2Proof.Machine.execArSetRelease u s
  | .arSetSr u => Sys2Proof.Machine.execArSetSr u s
  | .arTrigger u => Sys2Proof.Machine.execArTrigger u s
  | .arProcess u => Sys2Proof.Machine.execArProcess u s
  | .arGet u => Sys2Proof.Machine.execArGet u s
  | .lfoSetFreq u => Sys2Proof.Machine.execLfoSetFreq u s
  | .lfoSetSr u => Sys2Proof.Machine.execLfoSetSr u s
  | .lfoSetShape u sel => Sys2Proof.Machine.execLfoSetShape u sel s
  | .lfoSetSeed u => Sys2Proof.Machine.execLfoSetSeed u s
  | .lfoProcess u => Sys2Proof.Machine.execLfoProcess u s
  | .lfoGet u => Sys2Proof.Machine.execLfoGet u s
  | .wtLookup sel => Sys2Proof.Machine.execWtLookup sel s

end Sys2Proof.Machine
end

