-- ==== Sys2Proof/Machine/Flags.lean ====
section
/-! DEFINITION. The STATUS register: its fields, and the write that clears its sticky bits (10_state.md R54,
R55; 60_exceptions.md R451). -/

namespace Sys2Proof.Machine

/-- The code of an error, as LAST_ERR records it (60_exceptions.md R451). -/
def errorCode : CmdError → U8
  | .illegalOpcode => 0x01#8
  | .badUnit => 0x02#8
  | .reservedBits => 0x03#8
  | .badSelector => 0x04#8
  | .context => 0x05#8

/-- The LAST_ERR field: 0 when no command was rejected since the last clear (10_state.md R54). -/
def lastErrField : Option CmdError → U8
  | none => 0x00#8
  | some c => errorCode c

/-- `eng.state` as a number (10_state.md R70, 44_engine.md R401). -/
def EngPhase.code : EngPhase → BitVec 2
  | .stopped => 0#2
  | .armed => 1#2
  | .inHandler => 2#2

/-- STATUS, from its fields of 10_state.md R54, bit 31 first. -/
def State.status (s : State) : U32 :=
  0#13 ++ BitVec.ofBool s.sticky.beginFail ++ BitVec.ofBool s.sticky.rearmFail ++
    BitVec.ofBool s.sticky.err ++ lastErrField s.sticky.lastErr ++ 0#4 ++
    BitVec.ofBool (decide (s.eng.cb ≠ 0#32)) ++ BitVec.ofBool s.inIsr ++ s.eng.phase.code

/-- A write of `w` to STATUS (10_state.md R55). -/
def State.writeStatus (s : State) (w : U32) : State :=
  { s with sticky :=
      { lastErr := if w.getLsbD 16 then none else s.sticky.lastErr
        err := if w.getLsbD 16 then false else s.sticky.err
        rearmFail := if w.getLsbD 17 then false else s.sticky.rearmFail
        beginFail := if w.getLsbD 18 then false else s.sticky.beginFail } }

end Sys2Proof.Machine
end

