-- ==== Sys2Proof/Machine/Bus.lean ====
section
/-! DEFINITION. The register window on the host's bus (10_state.md R51 to R59, 20_memory.md R100 to R111), the
command port (30_encoding.md R136) and what the block does with each input from outside. -/

namespace Sys2Proof.Machine

/-! ### The register map (10_state.md R51) -/

/-- What an offset of the window holds. -/
inductive Register where
  | id
  | cfgTable
  | cfgCounts0
  | cfgCounts1
  | cfgCounts2
  | status
  | cmd
  | engCb
  | engRate
  | engPeriod
  | engPin
  | op (k : Fin 5)
  | res (k : Fin 8)
  | reserved
  deriving DecidableEq, Repr

/-- The register at a byte offset (10_state.md R51, R59). -/
def registerAt : Nat → Register
  | 0x00 => .id
  | 0x04 => .cfgTable
  | 0x08 => .cfgCounts0
  | 0x0C => .cfgCounts1
  | 0x10 => .cfgCounts2
  | 0x14 => .status
  | 0x18 => .cmd
  | 0x1C => .engCb
  | 0x20 => .engRate
  | 0x24 => .engPeriod
  | 0x28 => .engPin
  | 0x30 => .op 0
  | 0x34 => .op 1
  | 0x38 => .op 2
  | 0x3C => .op 3
  | 0x40 => .op 4
  | 0x50 => .res 0
  | 0x54 => .res 1
  | 0x58 => .res 2
  | 0x5C => .res 3
  | 0x60 => .res 4
  | 0x64 => .res 5
  | 0x68 => .res 6
  | 0x6C => .res 7
  | _ => .reserved

/-- The offset of CMD (10_state.md R56). -/
def cmdOffset : Nat := 0x18

/-- Four byte fields, the highest first. -/
def fourBytes (b3 b2 b1 b0 : Nat) : U32 :=
  BitVec.ofNat 8 b3 ++ BitVec.ofNat 8 b2 ++ BitVec.ofNat 8 b1 ++ BitVec.ofNat 8 b0

/-- What a 32-bit read of a register answers (10_state.md R52 to R59). -/
def State.readReg (s : State) : Register → U32
  | .id => Config.idValue
  | .cfgTable => BitVec.ofNat 32 s.cfg.tableSize
  | .cfgCounts0 =>
    fourBytes s.units.svf.length s.units.onepole.length s.units.osc.length s.units.pacc.length
  | .cfgCounts1 =>
    fourBytes s.units.ar.length s.units.adsr.length s.units.dc.length s.units.biquad.length
  | .cfgCounts2 => fourBytes 0 s.cfg.outBits s.cfg.nTables s.units.lfo.length
  | .status => s.status
  | .cmd => 0#32
  | .engCb => s.eng.cb
  | .engRate => s.eng.rate
  | .engPeriod => s.eng.period
  | .engPin => s.eng.pin
  | .op k => s.bank.op k
  | .res k => s.bank.res k
  | .reserved => 0#32

/-- Byte `off` of the window, where a host views it as bytes: little-endian (20_memory.md R102). -/
def State.windowByte (s : State) (off : Nat) : U8 :=
  (s.readReg (registerAt (off / 4 * 4))).extractLsb' (8 * (off % 4)) 8

/-! ### The command port (30_encoding.md R136, 10_state.md R56) -/

/-- A write of `w` to CMD: one command, executed or rejected. -/
def command (w : U32) (s : State) : Host.Outcome State Fault Refusal :=
  match decode w with
  | .ok i => exec i s
  | .error c => .next (s.reject c)

/-- A 32-bit write of `w` to a register (10_state.md R52 to R59). Writes of read-only registers and of
reserved offsets are ignored. -/
def State.writeReg (s : State) (w : U32) : Register → Host.Outcome State Fault Refusal
  | .status => .next (s.writeStatus w)
  | .cmd => command w s
  | .op k => .next (s.mapBank fun b => b.setOp k w)
  | .id => .next s
  | .cfgTable => .next s
  | .cfgCounts0 => .next s
  | .cfgCounts1 => .next s
  | .cfgCounts2 => .next s
  | .engCb => .next s
  | .engRate => .next s
  | .engPeriod => .next s
  | .engPin => .next s
  | .res _ => .next s
  | .reserved => .next s

/-! ### Bus accesses (20_memory.md R101, R103) -/

/-- The window's decode: the offset of an address in the window (20_memory.md R101). -/
def windowOffset (base addr : Nat) : Option Nat :=
  if base ≤ addr ∧ addr ≤ base + 0xFF then some (addr - base) else none

/-- The access is one the block accepts: 32 bits wide, at a multiple of 4 (20_memory.md R103). -/
def BusAccess.accepted (a : BusAccess) (off : Nat) : Bool :=
  decide (a.width = .bits32) && decide (off % 4 = 0)

/-- One access of the host's bus. The block does not see an access outside its window (20_memory.md R101);
another width or alignment is a bus error, refused (R103). A read has no side effect in the block (R105):
the data go to the host. -/
def busAccess (a : BusAccess) (s : State) : Host.Outcome State Fault Refusal :=
  match windowOffset s.cfg.baseAddr a.addr with
  | none => .next s
  | some off =>
    if a.accepted off then
      match a.write with
      | some w => s.writeReg w (registerAt off)
      | none => .next (s.mapEnv fun e => { e with readData := some (s.readReg (registerAt off)) })
    else .refused .busError

/-! ### The inputs (00_scope.md R7, R9, 20_memory.md R110) -/

/-- A step's outcome, changed in its next state. -/
def mapNext (f : State → State) : Host.Outcome State Fault Refusal → Host.Outcome State Fault Refusal
  | .next s => .next (f s)
  | .fault r => .fault r
  | .refused r => .refused r

/-- The work of a step, a bus access or an expiry handling alike, during which an expiry may arrive: it is
latched (10_state.md R72), before or after the step's own effects. -/
def during (expiry : Arrival) (work : State → Host.Outcome State Fault Refusal) (s : State) :
    Host.Outcome State Fault Refusal :=
  match expiry with
  | .none => work s
  | .early => work s.latchExpiry
  | .late => mapNext State.latchExpiry (work s)

/-- What the block does with one input. -/
def accept (i : Input) (s : State) : Host.Outcome State Fault Refusal :=
  match i with
  | .bus a => busAccess a s
  | .expire => .next s.timerExpired.takeExpiry

/-- The write of a command word to CMD. -/
def cmdWrite (base : Nat) (w : U32) : Input :=
  .bus { addr := base + cmdOffset, width := .bits32, write := some w }

/-- One step of the block (00_scope.md R7). The reset input comes before everything, whatever the state is
(70_reset_and_hazards.md R500); else a latched expiry is handled (10_state.md R72), else the next input is
taken. With neither the block is idle and holds its state (60_exceptions.md R479). -/
def stepBlock (s : State) : Host.Outcome State Fault Refusal :=
  match s.env.turn with
  | .reset => .next (s.mapEnv Env.nextTurn).blockReset
  | .work expiry =>
    if s.expiryPending then
      during expiry (fun t => .next t.takeExpiry) (s.mapEnv Env.nextTurn).clearPending
    else match s.env.inputs with
      | [] => .next s
      | i :: rest => during expiry (accept i) (s.mapEnv fun e => { e.nextTurn with inputs := rest })

end Sys2Proof.Machine
end

