-- ==== Sys2Proof/Machine/Step.lean ====
section
/-! DEFINITION. One step of the machine, and the state in which a given command word is the next thing the
host writes to CMD. -/

namespace Sys2Proof.Machine

/-- One step: a command or another bus access, an expiry handling, or a reset (00_scope.md R7). -/
def step (s : State) : Host.Outcome State Fault Refusal := stepBlock s

/-- `s` with the host about to write the word `w` (its low `nbits` bits) to CMD: the block fetches no
instructions (10_state.md R73), a program is the sequence of words the host writes (assumption 8). No expiry
is pending and the next turn is the block's to work, so that the very next step is that write. -/
def State.withFetchWord (s : State) (nbits w : Nat) : State :=
  { s with
    expiryPending := false
    env := { s.env with
      inputs := cmdWrite s.cfg.baseAddr (BitVec.ofNat 32 (w % 2 ^ nbits)) :: s.env.inputs
      turns := .work .none :: s.env.turns } }

end Sys2Proof.Machine
end

