-- ==== Sys2Proof/WellFormed.lean ====
section
/-! DEFINITION. Which commands pass the value checks of 30_encoding.md R136: the unit exists and the
selector is in its legal range (R131, R133). A command that fails one still decodes, and is rejected when
it runs. -/

namespace Sys2Proof

/-- What the value checks of 30_encoding.md R136 compare with: the unit counts and `N_TABLES`. -/
structure Limits where
  counts : Config.Counts
  nTables : Nat
  deriving DecidableEq, Repr

/-- The count that bounds UNIT for the command's kind (30_encoding.md R131), and the unit it names. `none`
for the kinds 0x0 and 0xA, whose UNIT must be 0. -/
def Instr.unitOf (n : Config.Counts) : Instr → Option (Nat × U8)
  | .nop => none
  | .engBegin => none
  | .engEnd => none
  | .engSetCallback => none
  | .engReturn => none
  | .paccSetFreq u => some (n.pacc, u)
  | .paccSetSr u => some (n.pacc, u)
  | .paccSetPhase u => some (n.pacc, u)
  | .paccTick u => some (n.pacc, u)
  | .paccGet u => some (n.pacc, u)
  | .oscSetFreq u => some (n.osc, u)
  | .oscSetSr u => some (n.osc, u)
  | .oscSetPhase u => some (n.osc, u)
  | .oscSetAmp u => some (n.osc, u)
  | .oscSetTable u _ => some (n.osc, u)
  | .oscProcess u => some (n.osc, u)
  | .oscGet u => some (n.osc, u)
  | .onepoleSetCutoff u => some (n.onepole, u)
  | .onepoleSetSr u => some (n.onepole, u)
  | .onepoleSetMode u _ => some (n.onepole, u)
  | .onepoleProcess u => some (n.onepole, u)
  | .onepoleReset u => some (n.onepole, u)
  | .onepoleGet u => some (n.onepole, u)
  | .svfSetCutoff u => some (n.svf, u)
  | .svfSetRes u => some (n.svf, u)
  | .svfSetSr u => some (n.svf, u)
  | .svfProcess u => some (n.svf, u)
  | .svfReset u => some (n.svf, u)
  | .svfGet u => some (n.svf, u)
  | .bqSetCutoff u => some (n.biquad, u)
  | .bqSetSr u => some (n.biquad, u)
  | .bqSetType u _ => some (n.biquad, u)
  | .bqSetCoeffs u => some (n.biquad, u)
  | .bqProcess u => some (n.biquad, u)
  | .bqReset u => some (n.biquad, u)
  | .bqGet u _ => some (n.biquad, u)
  | .dcProcess u => some (n.dc, u)
  | .dcReset u => some (n.dc, u)
  | .dcGet u => some (n.dc, u)
  | .adsrSetAttack u => some (n.adsr, u)
  | .adsrSetDecay u => some (n.adsr, u)
  | .adsrSetSustain u => some (n.adsr, u)
  | .adsrSetRelease u => some (n.adsr, u)
  | .adsrSetSr u => some (n.adsr, u)
  | .adsrNoteOn u => some (n.adsr, u)
  | .adsrNoteOff u => some (n.adsr, u)
  | .adsrProcess u => some (n.adsr, u)
  | .adsrGet u _ => some (n.adsr, u)
  | .arSetAttack u => some (n.ar, u)
  | .arSetRelease u => some (n.ar, u)
  | .arSetSr u => some (n.ar, u)
  | .arTrigger u => some (n.ar, u)
  | .arProcess u => some (n.ar, u)
  | .arGet u => some (n.ar, u)
  | .lfoSetFreq u => some (n.lfo, u)
  | .lfoSetSr u => some (n.lfo, u)
  | .lfoSetShape u _ => some (n.lfo, u)
  | .lfoSetSeed u => some (n.lfo, u)
  | .lfoProcess u => some (n.lfo, u)
  | .lfoGet u => some (n.lfo, u)
  | .wtLookup _ => none

/-- How many selector values are legal for the command, and the one it holds (30_encoding.md R133).
`none` for a command that takes no selector. -/
def Instr.selectorOf (nTables : Nat) : Instr → Option (Nat × U8)
  | .nop => none
  | .engBegin => none
  | .engEnd => none
  | .engSetCallback => none
  | .engReturn => none
  | .paccSetFreq _ => none
  | .paccSetSr _ => none
  | .paccSetPhase _ => none
  | .paccTick _ => none
  | .paccGet _ => none
  | .oscSetFreq _ => none
  | .oscSetSr _ => none
  | .oscSetPhase _ => none
  | .oscSetAmp _ => none
  | .oscSetTable _ sel => some (nTables, sel)
  | .oscProcess _ => none
  | .oscGet _ => none
  | .onepoleSetCutoff _ => none
  | .onepoleSetSr _ => none
  | .onepoleSetMode _ sel => some (2, sel)
  | .onepoleProcess _ => none
  | .onepoleReset _ => none
  | .onepoleGet _ => none
  | .svfSetCutoff _ => none
  | .svfSetRes _ => none
  | .svfSetSr _ => none
  | .svfProcess _ => none
  | .svfReset _ => none
  | .svfGet _ => none
  | .bqSetCutoff _ => none
  | .bqSetSr _ => none
  | .bqSetType _ sel => some (3, sel)
  | .bqSetCoeffs _ => none
  | .bqProcess _ => none
  | .bqReset _ => none
  | .bqGet _ sel => some (2, sel)
  | .dcProcess _ => none
  | .dcReset _ => none
  | .dcGet _ => none
  | .adsrSetAttack _ => none
  | .adsrSetDecay _ => none
  | .adsrSetSustain _ => none
  | .adsrSetRelease _ => none
  | .adsrSetSr _ => none
  | .adsrNoteOn _ => none
  | .adsrNoteOff _ => none
  | .adsrProcess _ => none
  | .adsrGet _ sel => some (2, sel)
  | .arSetAttack _ => none
  | .arSetRelease _ => none
  | .arSetSr _ => none
  | .arTrigger _ => none
  | .arProcess _ => none
  | .arGet _ => none
  | .lfoSetFreq _ => none
  | .lfoSetSr _ => none
  | .lfoSetShape _ sel => some (6, sel)
  | .lfoSetSeed _ => none
  | .lfoProcess _ => none
  | .lfoGet _ => none
  | .wtLookup sel => some (nTables, sel)

/-- The unit named by the command exists (30_encoding.md R131). -/
def Instr.unitExists (l : Limits) (i : Instr) : Bool :=
  match i.unitOf l.counts with
  | some (count, u) => decide (u.toNat < count)
  | none => true

/-- The selector of the command is in its legal range (30_encoding.md R133). -/
def Instr.selectorLegal (l : Limits) (i : Instr) : Bool :=
  match i.selectorOf l.nTables with
  | some (bound, sel) => decide (sel.toNat < bound)
  | none => true

/-- The command passes both value checks of 30_encoding.md R136. -/
def Instr.wellFormed (l : Limits) (i : Instr) : Bool := i.unitExists l && i.selectorLegal l

end Sys2Proof
end

