-- ==== Sys2Proof/Safety.lean ====
section
/-! DEFINITION. The terms that claims use: what the value checks compare with, when a command is legal in a
context, the invariants the spec states of the records, and what it means that coefficients match
parameters. -/

namespace Sys2Proof.Machine

/-! ### The value and context checks -/

/-- What the value checks of 30_encoding.md R136 compare with in a state. -/
def State.limits (s : State) : Limits := { counts := s.units.counts, nTables := s.cfg.nTables }

/-- The command is one of the system and engine kind (30_encoding.md R131). -/
def Instr.isEngine (i : Instr) : Bool := decide ((wordOpc (encode i)).toNat / 16 = 0)

/-! ### Invariants of the records (10_state.md R60 to R69; 43_envelopes.md R331, R348) -/

/-- The sample rate lies in `[UNIT_SR_MIN, UNIT_SR_MAX]` (10_state.md R60). -/
abbrev SrOk (sr : F32) : Prop := leF32 Config.unitSrMin sr = true ∧ leF32 sr Config.unitSrMax = true

/-- The cutoff lies in `[CUTOFF_MIN_HZ, sr *f32 0.5]` (42_filters.md R246). -/
abbrev CutoffOk (cutoff sr : F32) : Prop :=
  leF32 Config.cutoffMinHz cutoff = true ∧ leF32 cutoff (nyquist sr) = true

/-- The value lies in `[0.0, 1.0]`. -/
abbrev UnitInterval (x : F32) : Prop := leF32 zeroF32 x = true ∧ leF32 x oneF32 = true

/-- The invariant of a phase accumulator (10_state.md R61). -/
abbrev PaccState.Ok (a : PaccState) : Prop :=
  leF64 zeroF64 a.phase = true ∧ ltF64 a.phase oneF64 = true ∧
  leF64 zeroF64 a.inc = true ∧ leF64 a.inc 0x3FE0000000000000#64 = true ∧
  leF32 zeroF32 a.freq = true ∧ leF32 a.freq (nyquist a.sr) = true ∧ SrOk a.sr

/-- The invariant of an oscillator (10_state.md R62) in a block of `nTables` tables. -/
abbrev OscState.Ok (nTables : Nat) (o : OscState) : Prop :=
  o.acc.Ok ∧ o.table.toNat < nTables ∧ UnitInterval o.amp

/-- The invariant of an ADSR envelope (43_envelopes.md R331, items 1 to 5), with what it needs of the stored
parameters and of the target to be kept by every step. -/
abbrev AdsrState.Ok (e : AdsrState) : Prop :=
  UnitInterval e.level ∧ UnitInterval e.target ∧ UnitInterval e.sustain ∧
  leF32 Config.envIncMin e.attackInc = true ∧ leF32 Config.envIncMin e.decayInc = true ∧
  leF32 Config.envIncMin e.releaseInc = true ∧
  (e.stage = .idle → e.level = zeroF32 ∧ e.inc = zeroF32) ∧
  (e.stage = .sustain → e.level = e.target ∧ e.inc = zeroF32) ∧
  (e.stage = .attack → ltF32 zeroF32 e.inc = true) ∧
  (e.stage = .decay → ltF32 e.inc zeroF32 = true ∧ leF32 e.target e.level = true) ∧
  (e.stage = .release → ltF32 e.inc zeroF32 = true ∧ e.target = zeroF32)

/-- The invariant of an AR envelope (43_envelopes.md R348), with what it needs of the derived increments. -/
abbrev ArState.Ok (e : ArState) : Prop :=
  UnitInterval e.level ∧
  leF32 Config.envIncMin e.attackInc = true ∧ leF32 Config.envIncMin e.releaseInc = true ∧
  (e.stage = .idle → e.level = zeroF32 ∧ e.inc = zeroF32) ∧
  (e.stage = .attack → ltF32 zeroF32 e.inc = true) ∧
  (e.stage = .release → ltF32 e.inc zeroF32 = true)

/-- The ranges of a state-variable filter's parameters and coefficients (10_state.md R64). -/
abbrev SvfState.Ok (v : SvfState) : Prop :=
  SrOk v.sr ∧ CutoffOk v.cutoff v.sr ∧
  leF32 Config.svfResMin v.res = true ∧ leF32 v.res Config.svfResMax = true ∧
  leF32 Config.svfFMin v.f = true ∧ leF32 v.f Config.svfFMax = true ∧
  leF32 Config.svfQMin v.q = true ∧ leF32 v.q Config.svfQMax = true

/-- The stage time is at or above the floor (43_envelopes.md R320). -/
abbrev TimeOk (t : F32) : Prop := leF32 Config.envTimeMin t = true

/-- The engine record shows 0 while STOPPED, and the rate and its period while it runs; the handler is entered
with a callback alone (10_state.md R70; 44_engine.md R401 to R403; 60_exceptions.md R465). -/
abbrev EngState.Ok (e : EngState) : Prop :=
  (e.phase = .stopped → e.rate = 0#32 ∧ e.period = 0#32 ∧ e.pin = 0#32) ∧
  (e.phase ≠ .stopped →
    1 ≤ e.rate.toNat ∧ e.rate.toNat ≤ 2000000 ∧
    e.period.toNat = (1000000 + e.rate.toNat / 2) / e.rate.toNat) ∧
  (e.phase = .inHandler → e.cb ≠ 0#32)

/-! ### Invariants of the state -/

/-- Every accumulator of the block keeps its invariant (10_state.md R61). -/
abbrev State.AccumulatorsOk (s : State) : Prop :=
  (∀ a ∈ s.units.pacc, a.Ok) ∧ (∀ o ∈ s.units.osc, o.acc.Ok) ∧ (∀ l ∈ s.units.lfo, l.acc.Ok)

/-- Every oscillator names a table there is and has its amplitude in `[0.0, 1.0]` (10_state.md R62), and no
generator is in state 0 (10_state.md R69). -/
abbrev State.OscillatorsOk (s : State) : Prop :=
  (∀ o ∈ s.units.osc, o.table.toNat < s.cfg.nTables ∧ UnitInterval o.amp) ∧
  (∀ l ∈ s.units.lfo, l.rng ≠ 0#32)

/-- Every filter and envelope parameter is in the range its setter clamps to (10_state.md R60, R63 to R68). -/
abbrev State.ParametersOk (s : State) : Prop :=
  (∀ o ∈ s.units.onepole, SrOk o.sr ∧ CutoffOk o.cutoff o.sr) ∧
  (∀ v ∈ s.units.svf, v.Ok) ∧
  (∀ b ∈ s.units.biquad, SrOk b.sr ∧ CutoffOk b.cutoff b.sr) ∧
  (∀ e ∈ s.units.adsr, SrOk e.sr ∧ TimeOk e.attack ∧ TimeOk e.decay ∧ TimeOk e.release ∧
    UnitInterval e.sustain) ∧
  (∀ e ∈ s.units.ar, SrOk e.sr ∧ TimeOk e.attack ∧ TimeOk e.release)

/-- Every derived field is what its derivation rule gives for the stored parameters
(42_filters.md R245, 70_reset_and_hazards.md R521); a direct biquad is the exception R245 names. -/
abbrev State.DerivedOk (s : State) : Prop :=
  (∀ a ∈ s.units.pacc, a.inc = divF64 (widenF32 a.freq) (widenF32 a.sr)) ∧
  (∀ o ∈ s.units.osc, o.acc.inc = divF64 (widenF32 o.acc.freq) (widenF32 o.acc.sr)) ∧
  (∀ l ∈ s.units.lfo, l.acc.inc = divF64 (widenF32 l.acc.freq) (widenF32 l.acc.sr)) ∧
  (∀ o ∈ s.units.onepole, o = o.derive) ∧ (∀ v ∈ s.units.svf, v = v.derive) ∧
  (∀ b ∈ s.units.biquad, b.type ≠ .direct → b = b.derive) ∧
  (∀ e ∈ s.units.adsr, e = e.derive) ∧ (∀ e ∈ s.units.ar, e = e.derive)

/-- What no step changes: the parameters and how many units of each kind there are (20_memory.md R107;
00_scope.md R8). -/
abbrev State.SameHardware (s t : State) : Prop := t.cfg = s.cfg ∧ t.units.counts = s.units.counts

/-! ### The command word's own fields, by number (30_encoding.md R131 to R134, R137) -/

/-- `OPC` is one of the 195 values of 30_encoding.md R137. -/
abbrev IllegalOpcode (opc : Nat) : Prop :=
  (0x05 ≤ opc ∧ opc ≤ 0x0F) ∨ (0x15 ≤ opc ∧ opc ≤ 0x1F) ∨ (0x27 ≤ opc ∧ opc ≤ 0x2F) ∨
  (0x36 ≤ opc ∧ opc ≤ 0x3F) ∨ (0x46 ≤ opc ∧ opc ≤ 0x4F) ∨ (0x57 ≤ opc ∧ opc ≤ 0x5F) ∨
  (0x63 ≤ opc ∧ opc ≤ 0x6F) ∨ (0x79 ≤ opc ∧ opc ≤ 0x7F) ∨ (0x86 ≤ opc ∧ opc ≤ 0x8F) ∨
  (0x96 ≤ opc ∧ opc ≤ 0x9F) ∨ (0xA1 ≤ opc ∧ opc ≤ 0xFF)

/-- How many selector values are legal for an opcode; `none` where it takes none (30_encoding.md R133). -/
def selectorBound (nTables : Nat) : Nat → Option Nat
  | 0x24 => some nTables
  | 0xA0 => some nTables
  | 0x32 => some 2
  | 0x52 => some 3
  | 0x56 => some 2
  | 0x78 => some 2
  | 0x92 => some 6
  | _ => none

/-- How many UNIT values are legal for a kind; 1 for the kinds whose UNIT must be 0 (30_encoding.md R131). -/
def kindCount (n : Config.Counts) : Nat → Nat
  | 0x0 => 1
  | 0x1 => n.pacc
  | 0x2 => n.osc
  | 0x3 => n.onepole
  | 0x4 => n.svf
  | 0x5 => n.biquad
  | 0x6 => n.dc
  | 0x7 => n.adsr
  | 0x8 => n.ar
  | 0x9 => n.lfo
  | 0xA => 1
  | _ => 0

/-- The opcodes that are illegal in FG or in ISR (60_exceptions.md R461). -/
def contextIllegal (inIsr : Bool) : Nat → Bool
  | 0x01 => inIsr
  | 0x02 => inIsr
  | 0x03 => inIsr
  | 0x04 => !inIsr
  | _ => false

/-! ### Exact values -/

/-- The result `r` is the exact value `z / d` units, rounded once and with its sign; `zeroNeg` is the sign of an
exact zero (00_scope.md R18, R22). -/
abbrev IsRounded (f : Fmt) (r : Fp) (z : Int) (d : Nat) (zeroNeg : Bool) : Prop :=
  r.mag = roundMag f z.natAbs d ∧ r.neg = if z = 0 then zeroNeg else decide (z < 0)

/-! ### Bus accesses and rejections, as claims name them -/

/-- A 32-bit read at the offset answers `v`, and nothing in the block changes (20_memory.md R105, R110). -/
abbrev State.Reads (s : State) (off : Nat) (v : U32) : Prop :=
  busAccess { addr := s.cfg.baseAddr + off, width := .bits32, write := none } s =
    .next { s with env := { s.env with readData := some v } }

/-- A 32-bit write of `w` at the offset leaves the state `t`. -/
abbrev State.Writes (s : State) (off : Nat) (w : U32) (t : State) : Prop :=
  busAccess { addr := s.cfg.baseAddr + off, width := .bits32, write := some w } s = .next t

/-- The word is rejected with the code: ERR and LAST_ERR are written and nothing else
(60_exceptions.md R452). -/
abbrev State.Rejects (s : State) (w : U32) (c : CmdError) : Prop :=
  command w s = .next { s with sticky := { s.sticky with err := true, lastErr := some c } }

/-! ### What a step does, in the words of 44_engine.md R401 -/

/-- The step of `s` is a reset (70_reset_and_hazards.md R500). -/
abbrev State.StepsReset (s : State) : Prop := s.env.turn = .reset

/-- The step of `s` is the command `i`: no reset comes first, nothing is latched, and the host writes its word
to CMD. -/
abbrev State.StepsCommand (s : State) (i : Instr) : Prop :=
  ¬ s.StepsReset ∧ s.expiryPending = false ∧
  ∃ a rest, s.env.inputs = .bus a :: rest ∧ a.addr = s.cfg.baseAddr + 0x18 ∧ a.width = .bits32 ∧
    a.write = some (encode i)

/-- The step of `s` is the handling of an expiry, latched or new (60_exceptions.md R465). -/
abbrev State.StepsExpiry (s : State) : Prop :=
  ¬ s.StepsReset ∧ (s.expiryPending = true ∨ ∃ rest, s.env.inputs = .expire :: rest)

end Sys2Proof.Machine
end

