-- ==== Sys2Proof/Certificates/Slice0/Obligations.lean ====
section
/-! DEFINITION. The statements for the provers. Every `def Obligations.<Name>` states something about the
machine for every state, or for every state that meets the conditions it names; the docstring names the rules
of spec/ it formalises. -/

open Sys2Proof Sys2Proof.Machine

/-! ## Encoding (30_encoding.md) -/

/-- The examples of 30_encoding.md R141 and of 60_exceptions.md R453, as the command port takes them. -/
def Obligations.ExampleWordsDecodeAsWritten : Prop :=
  decode 0x24030200#32 = .ok (.oscSetTable 3#8 2#8) ∧
  decode 0x92010400#32 = .ok (.lfoSetShape 1#8 4#8) ∧
  decode 0x75000000#32 = .ok (.adsrNoteOn 0#8) ∧
  decode 0x04000000#32 = .ok .engReturn ∧
  encode (.oscSetTable 3#8 2#8) = 0x24030200#32 ∧
  encode (.lfoSetShape 1#8 4#8) = 0x92010400#32 ∧
  encode (.adsrNoteOn 0#8) = 0x75000000#32 ∧
  encode .engReturn = 0x04000000#32 ∧
  (∀ s : State, s.Rejects 0x75000001#32 .reservedBits) ∧
  (∀ s : State, s.Rejects 0x75010100#32 .reservedBits) ∧
  (∀ s : State, s.units.adsr.length = 2 → s.Rejects 0x75020000#32 .badUnit) ∧
  (∀ s : State, s.Rejects 0x05FF0001#32 .illegalOpcode) ∧
  (∀ s : State, s.Rejects 0x02010001#32 .reservedBits) ∧
  (∀ s : State, s.units.lfo.length ≤ 255 → s.Rejects 0x92FF0900#32 .badUnit) ∧
  (∀ s : State, s.inIsr = true → s.Rejects 0x01000000#32 .context)

/-- Every command, with every UNIT and SEL, is what its own word decodes to (30_encoding.md R130, R134, R136). -/
def Obligations.DecodeOfEncodeIsTheCommand : Prop :=
  ∀ i : Instr, decode (encode i) = .ok i ∧ decodeTableWord 32 (encode i).toNat = some i

/-- A word that decodes is the word of the command it decodes to: no bit of it goes unread
(30_encoding.md R135). -/
def Obligations.EncodeOfDecodeIsTheWord : Prop :=
  ∀ (w : U32) (i : Instr), decode w = .ok i → encode i = w

/-- The words of 30_encoding.md R137: which opcodes are illegal, that no other bit of such a word matters, the
reserved bits, and the word 0. -/
def Obligations.IllegalAndReservedWordsAreRejected : Prop :=
  ((List.range 256).filter fun opc => decide (IllegalOpcode opc)).length = 195 ∧
  (∀ w : U32, decode w = .error .illegalOpcode ↔ IllegalOpcode (wordOpc w).toNat) ∧
  (∀ (w : U32) (s : State), IllegalOpcode (wordOpc w).toNat → s.Rejects w .illegalOpcode) ∧
  (∀ (w : U32) (s : State), ¬ IllegalOpcode (wordOpc w).toNat → wordRsv w ≠ 0#8 → s.Rejects w .reservedBits) ∧
  (∀ (w : U32) (s : State), ¬ IllegalOpcode (wordOpc w).toNat → wordSel w ≠ 0#8 →
    selectorBound s.cfg.nTables (wordOpc w).toNat = none → s.Rejects w .reservedBits) ∧
  decode 0x00000000#32 = .ok .nop ∧ ∀ s : State, command 0x00000000#32 s = .next s

/-- The checks of the command port, in the order of 30_encoding.md R136, and the command's own rule where
all of them pass. -/
def Obligations.CommandPortChecksInOrder : Prop :=
  ∀ (w : U32) (s : State),
    if IllegalOpcode (wordOpc w).toNat then s.Rejects w .illegalOpcode
    else if wordRsv w ≠ 0#8 ∨ (wordSel w ≠ 0#8 ∧ selectorBound s.cfg.nTables (wordOpc w).toNat = none) then
      s.Rejects w .reservedBits
    else if kindCount s.units.counts ((wordOpc w).toNat / 16) ≤ (wordUnit w).toNat then s.Rejects w .badUnit
    else if (selectorBound s.cfg.nTables (wordOpc w).toNat).any (fun n => decide (n ≤ (wordSel w).toNat)) = true
      then s.Rejects w .badSelector
    else if contextIllegal s.inIsr (wordOpc w).toNat = true then s.Rejects w .context
    else ∃ i : Instr, encode i = w ∧ command w s = exec i s

/-- A command that passes every check runs, and leaves ERR and LAST_ERR alone, whatever its operand values
are (60_exceptions.md R450, R454). -/
def Obligations.AcceptedCommandsRunWithoutError : Prop :=
  ∀ (i : Instr) (s : State), i.wellFormed s.limits = true →
    contextIllegal s.inIsr (wordOpc (encode i)).toNat = false →
    ∃ t, exec i s = .next t ∧ t.sticky.err = s.sticky.err ∧ t.sticky.lastErr = s.sticky.lastErr

/-! ## Steps, and what a command can reach -/

/-- A step whose next input is a write to CMD, with no reset and nothing latched before it, runs the command
that the word decodes to, or rejects the word; an expiry that arrives meanwhile is latched; and `withFetchWord`
puts a word there. The model's choices in it: the lists of inputs and turns, and that the latch is set before or
after the command's effects (assumption 4); that every expiry, a stale one too, disarms the timer's record
(assumption 5, beside 10_state.md R71); and the form of `withFetchWord` (assumption 8). -/
def Obligations.StepRunsTheDecodedCommand : Prop :=
  (∀ (s s' : State) (w : U32) (expiry : Arrival) (rest : List Input),
    s.env.turn = .work expiry → s.expiryPending = false →
    s.env.inputs = .bus { addr := s.cfg.baseAddr + 0x18, width := .bits32, write := some w } :: rest →
    s' = { s with env := { s.env with inputs := rest, turns := s.env.turns.tail } } →
    (∀ i : Instr, decode w = .ok i →
      (expiry = .none → step s = exec i s') ∧
      (expiry = .early → step s = exec i
        { s' with expiryPending := true, env := { s'.env with timer := .disarmed } }) ∧
      (expiry = .late → step s =
        mapNext (fun t => { t with expiryPending := true, env := { t.env with timer := .disarmed } })
          (exec i s'))) ∧
    (∀ c : CmdError, decode w = .error c →
      step s = .next
        { s' with
          sticky := { s.sticky with err := true, lastErr := some c }
          expiryPending := decide (expiry ≠ .none)
          env := { s'.env with timer := if expiry = .none then s.env.timer else .disarmed } })) ∧
  (∀ (s : State) (nbits w : Nat) (i : Instr), decodeTableWord nbits w = some i →
    step (s.withFetchWord nbits w) = exec i { s with expiryPending := false })

/-- The step is refused exactly where no reset and no latched expiry comes first and the next input is an access
of another width than 32 bits, or at an offset that is no multiple of 4, to an address of the window; every other
step has a next state (20_memory.md R101, R103). The model's choices in it: the order of resets, latched expiries
and inputs, and a next state with no input (assumption 4); a next state after an access outside the window
(assumption 9); and that there is no other stop (assumption 10). -/
def Obligations.OnlyBusErrorsAreRefused : Prop :=
  ∀ s : State,
    ((∃ t, step s = .next t) ∨ step s = .refused .busError) ∧
    (step s = .refused .busError ↔
      s.env.turn ≠ .reset ∧ s.expiryPending = false ∧ ∃ a rest, s.env.inputs = .bus a :: rest ∧
        s.cfg.baseAddr ≤ a.addr ∧ a.addr ≤ s.cfg.baseAddr + 0xFF ∧
        (a.width ≠ .bits32 ∨ (a.addr - s.cfg.baseAddr) % 4 ≠ 0))

/-- A unit command changes nothing of the engine, of the agents and of the begin and re-arm bits; an engine
command touches no unit, and no command changes the parameters or takes an input or a turn
(41_phase_oscillator.md to 44_engine.md, "Flags" and R403). -/
def Obligations.UnitsAndEngineAreApart : Prop :=
  ∀ (i : Instr) (s t : State), exec i s = .next t →
    t.cfg = s.cfg ∧ t.env.inputs = s.env.inputs ∧ t.env.turns = s.env.turns ∧
    t.env.readData = s.env.readData ∧
    (Instr.isEngine i = true → t.units = s.units) ∧
    (Instr.isEngine i = false →
      t.eng = s.eng ∧ t.env = s.env ∧ t.expiryPending = s.expiryPending ∧
      t.sticky.rearmFail = s.sticky.rearmFail ∧ t.sticky.beginFail = s.sticky.beginFail)

/-- A command reaches the bank of the context it starts in and no other, and writes no operand register
(10_state.md R57). -/
def Obligations.CommandsUseTheCurrentBank : Prop :=
  ∀ (i : Instr) (s t : State), exec i s = .next t →
    (s.inIsr = false → t.isr = s.isr) ∧ (s.inIsr = true → t.fg = s.fg) ∧
    ∀ k : Fin 5, t.fg.op k = s.fg.op k ∧ t.isr.op k = s.isr.op k

/-- What a command does depends in no way on the other context's bank: with that bank changed, the command
does the same and leaves the change in place (10_state.md R57, 70_reset_and_hazards.md R520). -/
def Obligations.TheOtherBankIsNeverSeen : Prop :=
  ∀ (i : Instr) (s : State) (b : Bank),
    (s.inIsr = false →
      exec i { s with isr := b } = mapNext (fun t => { t with isr := b }) (exec i s)) ∧
    (s.inIsr = true →
      exec i { s with fg := b } = mapNext (fun t => { t with fg := b }) (exec i s))

/-- A command changes no unit but the one its word names by kind and UNIT (30_encoding.md R130, R131). -/
def Obligations.OnlyTheNamedUnitChanges : Prop :=
  ∀ (i : Instr) (s t : State) (kind unit k : Nat), exec i s = .next t →
    kind = (wordOpc (encode i)).toNat / 16 → unit = (wordUnit (encode i)).toNat →
    (kind ≠ 0x1 ∨ k ≠ unit → t.units.pacc[k]? = s.units.pacc[k]?) ∧
    (kind ≠ 0x2 ∨ k ≠ unit → t.units.osc[k]? = s.units.osc[k]?) ∧
    (kind ≠ 0x3 ∨ k ≠ unit → t.units.onepole[k]? = s.units.onepole[k]?) ∧
    (kind ≠ 0x4 ∨ k ≠ unit → t.units.svf[k]? = s.units.svf[k]?) ∧
    (kind ≠ 0x5 ∨ k ≠ unit → t.units.biquad[k]? = s.units.biquad[k]?) ∧
    (kind ≠ 0x6 ∨ k ≠ unit → t.units.dc[k]? = s.units.dc[k]?) ∧
    (kind ≠ 0x7 ∨ k ≠ unit → t.units.adsr[k]? = s.units.adsr[k]?) ∧
    (kind ≠ 0x8 ∨ k ≠ unit → t.units.ar[k]? = s.units.ar[k]?) ∧
    (kind ≠ 0x9 ∨ k ≠ unit → t.units.lfo[k]? = s.units.lfo[k]?)

/-! ## The register window (10_state.md R51 to R59, 20_memory.md) -/

/-- The fields of STATUS (10_state.md R54), the interrupt request line, which is STATUS.CTX as a wire
(60_exceptions.md R466), and the window as bytes: byte `off + k` is bits `8k + 7` to `8k` of the register at
`off` (20_memory.md R102). -/
def Obligations.StatusShowsItsFields : Prop :=
  ∀ s : State,
    s.Reads 0x14 s.status ∧
    s.status.extractLsb' 0 2 =
      (match s.eng.phase with | .stopped => 0#2 | .armed => 1#2 | .inHandler => 2#2) ∧
    s.status.getLsbD 2 = decide (s.eng.phase = .inHandler) ∧
    s.status.getLsbD 3 = decide (s.eng.cb ≠ 0#32) ∧
    s.status.extractLsb' 4 4 = 0#4 ∧
    s.status.extractLsb' 8 8 =
      (match s.sticky.lastErr with
        | none => 0x00#8 | some .illegalOpcode => 0x01#8 | some .badUnit => 0x02#8
        | some .reservedBits => 0x03#8 | some .badSelector => 0x04#8 | some .context => 0x05#8) ∧
    s.status.getLsbD 16 = s.sticky.err ∧
    s.status.getLsbD 17 = s.sticky.rearmFail ∧
    s.status.getLsbD 18 = s.sticky.beginFail ∧
    s.status.extractLsb' 19 13 = 0#13 ∧
    s.irq = decide (s.eng.phase = .inHandler) ∧
    ∀ (off k : Nat) (v : U32), off % 4 = 0 → off < 0x100 → k < 4 → s.Reads off v →
      s.windowByte (off + k) = v.extractLsb' (8 * k) 8

/-- A write to STATUS clears the sticky bits it names and nothing else, in either context
(10_state.md R55). -/
def Obligations.StatusWriteClearsItsBits : Prop :=
  ∀ (s : State) (w : U32),
    s.Writes 0x14 w
      { s with sticky :=
          { lastErr := if w.getLsbD 16 then none else s.sticky.lastErr
            err := s.sticky.err && !w.getLsbD 16
            rearmFail := s.sticky.rearmFail && !w.getLsbD 17
            beginFail := s.sticky.beginFail && !w.getLsbD 18 } }

/-- The offsets that 10_state.md R51 does not assign: aligned 32-bit reads answer 0, writes are ignored
(R59). -/
def Obligations.ReservedOffsetsReadZero : Prop :=
  ∀ (s : State) (off : Nat), off < 0x100 → off % 4 = 0 →
    (off = 0x2C ∨ (0x44 ≤ off ∧ off ≤ 0x4C) ∨ 0x70 ≤ off) →
    s.Reads off 0#32 ∧ ∀ w : U32, s.Writes off w s

/-- The identification, configuration and engine mirror registers: what they read, and that writes are
ignored (10_state.md R52, R53, R58). -/
def Obligations.ReadOnlyRegisters : Prop :=
  ∀ s : State, s.cfg.Valid → s.units.counts.Valid →
    s.Reads 0x00 0x4B4F4531#32 ∧
    s.Reads 0x04 (BitVec.ofNat 32 s.cfg.tableSize) ∧
    s.Reads 0x08 (BitVec.ofNat 32 (s.units.pacc.length + 2 ^ 8 * s.units.osc.length +
      2 ^ 16 * s.units.onepole.length + 2 ^ 24 * s.units.svf.length)) ∧
    s.Reads 0x0C (BitVec.ofNat 32 (s.units.biquad.length + 2 ^ 8 * s.units.dc.length +
      2 ^ 16 * s.units.adsr.length + 2 ^ 24 * s.units.ar.length)) ∧
    s.Reads 0x10 (BitVec.ofNat 32 (s.units.lfo.length + 2 ^ 8 * s.cfg.nTables + 2 ^ 16 * s.cfg.outBits)) ∧
    s.Reads 0x1C s.eng.cb ∧ s.Reads 0x20 s.eng.rate ∧ s.Reads 0x24 s.eng.period ∧ s.Reads 0x28 s.eng.pin ∧
    ∀ off ∈ [0x00, 0x04, 0x08, 0x0C, 0x10, 0x1C, 0x20, 0x24, 0x28], ∀ w : U32, s.Writes off w s

/-- The operand and result registers as the bus and the commands reach them: always the bank of the context
(10_state.md R57), an `f32` operand by its bits (00_scope.md R14) and the `f64` operand with its low word in OP0
(30_encoding.md R132, 20_memory.md R102); and CMD reads 0 (R56). -/
def Obligations.OperandAndResultRegisters : Prop :=
  (∀ (s : State) (k : Fin 5) (w : U32),
    s.Reads (0x30 + 4 * k.val) ((if s.eng.phase = .inHandler then s.isr else s.fg).op k) ∧
    (s.eng.phase ≠ .inHandler → s.Writes (0x30 + 4 * k.val) w { s with fg := s.fg.setOp k w }) ∧
    (s.eng.phase = .inHandler → s.Writes (0x30 + 4 * k.val) w { s with isr := s.isr.setOp k w })) ∧
  (∀ (s : State) (k : Fin 8) (w : U32),
    s.Reads (0x50 + 4 * k.val) ((if s.eng.phase = .inHandler then s.isr else s.fg).res k) ∧
    s.Writes (0x50 + 4 * k.val) w s) ∧
  (∀ (b : Bank) (k j : Fin 5) (w : U32), (b.setOp k w).op j = if j = k then w else b.op j) ∧
  (∀ (b : Bank) (k : Fin 5) (j : Fin 8) (w : U32), (b.setOp k w).res j = b.res j) ∧
  (∀ (s : State) (vs : List U32),
    (s.eng.phase ≠ .inHandler →
      (s.putRes vs) = { s with fg := (s.putRes vs).fg } ∧
      (∀ k : Fin 5, (s.putRes vs).fg.op k = s.fg.op k) ∧
      ∀ k : Fin 8, (s.putRes vs).fg.res k = vs.getD k.val (s.fg.res k)) ∧
    (s.eng.phase = .inHandler →
      (s.putRes vs) = { s with isr := (s.putRes vs).isr } ∧
      (∀ k : Fin 5, (s.putRes vs).isr.op k = s.isr.op k) ∧
      ∀ k : Fin 8, (s.putRes vs).isr.res k = vs.getD k.val (s.isr.res k))) ∧
  (∀ (s : State) (b : Bank), b = (if s.eng.phase = .inHandler then s.isr else s.fg) →
    (∀ k : Fin 5, s.opU32 k = b.op k ∧ s.opF32 k = b.op k) ∧ s.opF64 = b.op 1 ++ b.op 0) ∧
  ∀ s : State, s.Reads 0x18 0#32

/-- No read has a side effect: it changes the data the host was given, and that alone (20_memory.md R105); and
the block does not see an access outside its window (R101). The field for the data and the unchanged state are
the model's (assumptions 6 and 9). -/
def Obligations.ReadsHaveNoSideEffect : Prop :=
  (∀ (a : BusAccess) (s t : State), a.write = none → busAccess a s = .next t →
    t = { s with env := { s.env with readData := t.env.readData } }) ∧
  ∀ (a : BusAccess) (s : State), (a.addr < s.cfg.baseAddr ∨ s.cfg.baseAddr + 0xFF < a.addr) →
    busAccess a s = .next s

/-! ## Arithmetic (00_scope.md R17 to R24) -/

/-- Rounding gives the representable value nearest to the exact one, and the even one of two that are equally
near; the infinity counts as the value just above the greatest finite one (00_scope.md R18). Every operation on
finite operands gives the exact result rounded so, once, and with its sign; the zero sums, differences, products
and quotients have the signs of IEEE 754. Comparisons and floors are those of the exact values (R20, R22), an
integer is rounded once (R22, R26), widening is exact and narrowing rounds once (R22). -/
def Obligations.RoundingIsNearestEven : Prop :=
  (∀ f : Fmt, f = fmt32 ∨ f = fmt64 → ∀ n d m : Nat, 0 < d → m ≤ f.infMag →
    roundMag f n d ≤ f.infMag ∧
    ((magUnits f (roundMag f n d) : Int) * d - n).natAbs ≤ ((magUnits f m : Int) * d - n).natAbs ∧
    (((magUnits f (roundMag f n d) : Int) * d - n).natAbs = ((magUnits f m : Int) * d - n).natAbs →
      m ≠ roundMag f n d → roundMag f n d % 2 = 0)) ∧
  (∀ (x y : F32) (u v : Int), isFinite32 x = true → isFinite32 y = true →
    u = (unpack32 x).units fmt32 → v = (unpack32 y).units fmt32 →
    IsRounded fmt32 (unpack32 (addF32 x y)) (u + v) 1 (x.msb && y.msb) ∧
    IsRounded fmt32 (unpack32 (subF32 x y)) (u - v) 1 (x.msb && !y.msb) ∧
    IsRounded fmt32 (unpack32 (mulF32 x y)) (u * v) (2 ^ 149) (x.msb != y.msb) ∧
    (v ≠ 0 → IsRounded fmt32 (unpack32 (divF32 x y)) (u * 2 ^ 149 * v.sign) v.natAbs (x.msb != y.msb)) ∧
    (leF32 x y = true ↔ u ≤ v) ∧ (ltF32 x y = true ↔ u < v) ∧
    floorF32 x * 2 ^ 149 ≤ u ∧ u < (floorF32 x + 1) * 2 ^ 149 ∧
    isFinite64 (widenF32 x) = true ∧ (unpack64 (widenF32 x)).units fmt64 = u * 2 ^ 925 ∧
    (widenF32 x).msb = x.msb) ∧
  (∀ (x y : F64) (u v : Int), isFinite64 x = true → isFinite64 y = true →
    u = (unpack64 x).units fmt64 → v = (unpack64 y).units fmt64 →
    IsRounded fmt64 (unpack64 (addF64 x y)) (u + v) 1 (x.msb && y.msb) ∧
    IsRounded fmt64 (unpack64 (subF64 x y)) (u - v) 1 (x.msb && !y.msb) ∧
    IsRounded fmt64 (unpack64 (mulF64 x y)) (u * v) (2 ^ 1074) (x.msb != y.msb) ∧
    (v ≠ 0 → IsRounded fmt64 (unpack64 (divF64 x y)) (u * 2 ^ 1074 * v.sign) v.natAbs (x.msb != y.msb)) ∧
    (leF64 x y = true ↔ u ≤ v) ∧ (ltF64 x y = true ↔ u < v) ∧
    floorF64 x * 2 ^ 1074 ≤ u ∧ u < (floorF64 x + 1) * 2 ^ 1074 ∧
    IsRounded fmt32 (unpack32 (narrowF64 x)) u (2 ^ 925) x.msb) ∧
  (∀ z : Int, IsRounded fmt32 (unpack32 (intToF32 z)) (z * 2 ^ 149) 1 false ∧
    IsRounded fmt64 (unpack64 (intToF64 z)) (z * 2 ^ 1074) 1 false) ∧
  ∀ w : U32, i32toF32 w = intToF32 w.toInt

/-- Every operation that gives a NaN gives the canonical one, whatever NaN its operands were
(00_scope.md R19). -/
def Obligations.NanResultsAreCanonical : Prop :=
  (∀ op ∈ [addF32, subF32, mulF32, divF32], ∀ x y : F32,
    (isNaN32 (op x y) = true → op x y = 0x7FC00000#32) ∧
    (isNaN32 x = true ∨ isNaN32 y = true → op x y = 0x7FC00000#32)) ∧
  (∀ op ∈ [addF64, subF64, mulF64, divF64], ∀ x y : F64,
    ((unpack64 (op x y)).isNaN fmt64 = true → op x y = 0x7FF8000000000000#64) ∧
    ((unpack64 x).isNaN fmt64 = true ∨ (unpack64 y).isNaN fmt64 = true → op x y = 0x7FF8000000000000#64))

/-- `clampf` lands between its bounds, and leaves a value that is there already (00_scope.md R21). -/
def Obligations.ClampLandsBetweenItsBounds : Prop :=
  ∀ v lo hi : F32, leF32 lo hi = true →
    leF32 lo (clampf v lo hi) = true ∧ leF32 (clampf v lo hi) hi = true ∧
    (isNaN32 v = true → clampf v lo hi = lo) ∧
    (ltF32 v lo = true → clampf v lo hi = lo) ∧ (ltF32 hi v = true → clampf v lo hi = hi) ∧
    (leF32 lo v = true → leF32 v hi = true → clampf v lo hi = v)

/-- `Quantize`: its range, its ends, and the exact floor between them (44_engine.md R408). A binary32 value is
`units` times 2^-149. -/
def Obligations.QuantizeIsTheExactFloor : Prop :=
  ∀ (bits : Nat) (x : F32), 1 ≤ bits → bits ≤ 16 →
    quantize bits x < 2 ^ bits ∧
    (isNaN32 x = true → quantize bits x = 2 ^ (bits - 1)) ∧
    (leF32 x negOneF32 = true → quantize bits x = 0) ∧
    (leF32 oneF32 x = true → quantize bits x = 2 ^ bits - 1) ∧
    (leF32 negOneF32 x = true → ltF32 x oneF32 = true →
      (quantize bits x : Int) * 2 ^ 149 ≤ ((unpack32 x).units fmt32 + 2 ^ 149) * 2 ^ (bits - 1) ∧
      ((unpack32 x).units fmt32 + 2 ^ 149) * 2 ^ (bits - 1) < ((quantize bits x : Int) + 1) * 2 ^ 149) ∧
    quantize 8 0xBF000000#32 = 64 ∧ quantize 8 0x3F000000#32 = 192 ∧ quantize 8 0x3F7D70A4#32 = 254 ∧
    quantize 8 0x80000001#32 = 127

/-- The period: its formula on unbounded integers, that it is 10^6 / r rounded to nearest with ties up, its
range, and the values R402 tabulates (44_engine.md R402). -/
def Obligations.PeriodIsRoundedToNearest : Prop :=
  (∀ r : U32, 1 ≤ r.toNat → r.toNat ≤ 2000000 →
    (period r).toNat = (1000000 + r.toNat / 2) / r.toNat ∧
    2 * r.toNat * (period r).toNat ≤ 2 * 1000000 + r.toNat ∧
    2 * 1000000 + r.toNat < 2 * r.toNat * ((period r).toNat + 1) ∧
    1 ≤ (period r).toNat ∧ (period r).toNat ≤ 1000000) ∧
  period 1#32 = 1000000#32 ∧ period 8000#32 = 125#32 ∧ period 22050#32 = 45#32 ∧ period 44100#32 = 23#32 ∧
  period 48000#32 = 21#32 ∧ period 2000000#32 = 1#32 ∧ Config.engRateMax = 2000000#32

/-! ## The engine (44_engine.md, 60_exceptions.md) -/

/-- `NOP` changes nothing, and `ENG_SET_CALLBACK` writes the callback handle (44_engine.md R400, R406). -/
def Obligations.NopAndSetCallback : Prop :=
  ∀ s : State,
    exec .nop s = .next s ∧
    (s.eng.phase ≠ .inHandler →
      exec .engSetCallback s = .next { s with eng := { s.eng with cb := s.fg.op 0 } })

/-- `ENG_BEGIN` where the rate is legal and both agents answer true: from STOPPED, and from ARMED after a
stop (44_engine.md R403, R404). The agents' answers are the oldest ones in store, which is the model's choice
(assumption 3). -/
def Obligations.EngBeginSucceeds : Prop :=
  ∀ (s : State) (rate pin cb : U32) (rest : List Bool),
    rate = s.fg.op 0 → pin = s.fg.op 1 → cb = s.fg.op 2 → rate ≠ 0#32 → rate.toNat ≤ 2000000 →
    s.env.answers = true :: true :: rest →
    (s.eng.phase = .stopped →
      exec .engBegin s = .next
        { s with
          fg := { s.fg with res0 := 1#32 }
          eng := { phase := .armed, cb := cb, rate := rate, period := period rate, pin := pin }
          env := { s.env with
            answers := rest
            asked := s.env.asked + 2
            events := s.env.events ++ [.configure pin rate true, .armOnce (period rate) true]
            timer := .armed (period rate)
            transport := { s.env.transport with configured := some (pin, rate, true) } } }) ∧
    (s.eng.phase = .armed →
      exec .engBegin s = .next
        { s with
          fg := { s.fg with res0 := 1#32 }
          eng := { phase := .armed, cb := cb, rate := rate, period := period rate, pin := pin }
          expiryPending := false
          env := { s.env with
            answers := rest
            asked := s.env.asked + 2
            events := s.env.events ++
              [.cancel, .write s.cfg.neutral, .configure pin rate true, .armOnce (period rate) true]
            timer := .armed (period rate)
            transport := { configured := some (pin, rate, true), code := some s.cfg.neutral } } })

/-- `ENG_BEGIN` that fails from STOPPED, for each of the three causes; and from ARMED it does what it does
from the STOPPED state that `ENG_END` would leave (44_engine.md R403, R404). The agents' answers are the oldest
ones in store, which is the model's choice (assumption 3). -/
def Obligations.EngBeginFails : Prop :=
  ∀ s : State,
    (s.eng.phase = .stopped → (s.fg.op 0 = 0#32 ∨ 2000000 < (s.fg.op 0).toNat) →
      exec .engBegin s = .next
        { s with
          fg := { s.fg with res0 := 0#32 }
          eng := { phase := .stopped, cb := 0#32, rate := 0#32, period := 0#32, pin := 0#32 }
          sticky := { s.sticky with beginFail := true } }) ∧
    (∀ rest, s.eng.phase = .stopped → s.fg.op 0 ≠ 0#32 → (s.fg.op 0).toNat ≤ 2000000 →
      s.env.answers = false :: rest →
      exec .engBegin s = .next
        { s with
          fg := { s.fg with res0 := 0#32 }
          eng := { phase := .stopped, cb := 0#32, rate := 0#32, period := 0#32, pin := 0#32 }
          sticky := { s.sticky with beginFail := true }
          env := { s.env with
            answers := rest
            asked := s.env.asked + 1
            events := s.env.events ++ [.configure (s.fg.op 1) (s.fg.op 0) false]
            transport := { s.env.transport with configured := some (s.fg.op 1, s.fg.op 0, false) } } }) ∧
    (∀ rest, s.eng.phase = .stopped → s.fg.op 0 ≠ 0#32 → (s.fg.op 0).toNat ≤ 2000000 →
      s.env.answers = true :: false :: rest →
      exec .engBegin s = .next
        { s with
          fg := { s.fg with res0 := 0#32 }
          eng := { phase := .stopped, cb := 0#32, rate := 0#32, period := 0#32, pin := 0#32 }
          sticky := { s.sticky with beginFail := true }
          env := { s.env with
            answers := rest
            asked := s.env.asked + 2
            events := s.env.events ++
              [.configure (s.fg.op 1) (s.fg.op 0) true, .armOnce (period (s.fg.op 0)) false,
                .write s.cfg.neutral]
            transport :=
              { configured := some (s.fg.op 1, s.fg.op 0, true), code := some s.cfg.neutral } } }) ∧
    (∀ t, s.eng.phase = .armed → exec .engEnd s = .next t →
      t.eng.phase = .stopped ∧ exec .engBegin s = exec .engBegin t)

/-- `ENG_END` from ARMED and from STOPPED (44_engine.md R404, R405). -/
def Obligations.EngEndStopsTheEngine : Prop :=
  ∀ s : State,
    (s.eng.phase = .armed →
      exec .engEnd s = .next
        { s with
          expiryPending := false
          eng := { phase := .stopped, cb := 0#32, rate := 0#32, period := 0#32, pin := 0#32 }
          env := { s.env with
            events := s.env.events ++ [.cancel, .write s.cfg.neutral]
            timer := .disarmed
            transport := { s.env.transport with code := some s.cfg.neutral } } }) ∧
    (s.eng.phase = .stopped →
      exec .engEnd s = .next { s with eng := { s.eng with cb := 0#32 } })

/-- `ENG_RETURN`: the quantized sample is written and the timer re-armed, or the engine stops
(44_engine.md R407, 60_exceptions.md R468, R470). The timer's answer is the oldest one in store, which is the
model's choice (assumption 3). -/
def Obligations.EngReturnWritesAndRearms : Prop :=
  ∀ (s : State) (code : Nat) (rest : List Bool),
    s.eng.phase = .inHandler → code = quantize s.cfg.outBits (s.isr.op 0) →
    (s.env.answers = true :: rest →
      exec .engReturn s = .next
        { s with
          eng := { s.eng with phase := .armed }
          env := { s.env with
            answers := rest
            asked := s.env.asked + 1
            events := s.env.events ++ [.write code, .armOnce s.eng.period true]
            timer := .armed s.eng.period
            transport := { s.env.transport with code := some code } } }) ∧
    (s.env.answers = false :: rest →
      exec .engReturn s = .next
        { s with
          eng := { phase := .stopped, cb := 0#32, rate := 0#32, period := 0#32, pin := 0#32 }
          sticky := { s.sticky with rearmFail := true }
          env := { s.env with
            answers := rest
            asked := s.env.asked + 1
            events := s.env.events ++
              [.write code, .armOnce s.eng.period false, .write s.cfg.neutral]
            transport := { s.env.transport with code := some s.cfg.neutral } } })

/-- The expiry handling step, for an expiry that was latched and for one that arrives between steps, which
disarms the timer: stale, into the handler, silence, and silence whose re-arm fails
(60_exceptions.md R465, R467, R470, R471). The latch is cleared by the step's first line, and a further expiry
that arrives while the step runs is latched again, before the handling (`s1`) or after it (`last`)
(10_state.md R72). The model's choices: the stored answers (assumption 3), the lists of inputs and turns and the
two moments of arrival (assumption 4), and the timer's record (assumption 5). -/
def Obligations.ExpiryHandlingStep : Prop :=
  ∀ (s s0 s1 : State) (expiry : Arrival) (last : State → State),
    s.env.turn = .work expiry →
    (s.expiryPending = true ∧
        s0 = { s with expiryPending := false, env := { s.env with turns := s.env.turns.tail } }) ∨
      (s.expiryPending = false ∧ ∃ rest, s.env.inputs = .expire :: rest ∧
        s0 = { s with env := { s.env with
          inputs := rest, turns := s.env.turns.tail, timer := .disarmed } }) →
    s1 = (if expiry = .early then
      { s0 with expiryPending := true, env := { s0.env with timer := .disarmed } } else s0) →
    last = (fun t => if expiry = .late then
      { t with expiryPending := true, env := { t.env with timer := .disarmed } } else t) →
    (s.eng.phase ≠ .armed → step s = .next (last s1)) ∧
    (s.eng.phase = .armed → s.eng.cb ≠ 0#32 →
      step s = .next (last { s1 with eng := { s.eng with phase := .inHandler } })) ∧
    (∀ rest, s.eng.phase = .armed → s.eng.cb = 0#32 → s.env.answers = true :: rest →
      step s = .next (last
        { s1 with
          env := { s1.env with
            answers := rest
            asked := s.env.asked + 1
            events := s.env.events ++ [.write s.cfg.neutral, .armOnce s.eng.period true]
            timer := .armed s.eng.period
            transport := { s.env.transport with code := some s.cfg.neutral } } })) ∧
    (∀ rest, s.eng.phase = .armed → s.eng.cb = 0#32 → s.env.answers = false :: rest →
      step s = .next (last
        { s1 with
          eng := { phase := .stopped, cb := 0#32, rate := 0#32, period := 0#32, pin := 0#32 }
          sticky := { s.sticky with rearmFail := true }
          env := { s1.env with
            answers := rest
            asked := s.env.asked + 1
            events := s.env.events ++
              [.write s.cfg.neutral, .armOnce s.eng.period false, .write s.cfg.neutral]
            transport := { s.env.transport with code := some s.cfg.neutral } } }))

/-- An expiry that arrives while a step is executing, a bus access or an expiry handling alike, is pending at the
step's end, unless the step was a command that stopped the engine; and nothing else is pending then
(10_state.md R72, 44_engine.md R404, 60_exceptions.md R465, R469). A step is executing where an expiry is latched
or an input is there. The two moments at which the expiry can arrive are the model's choice (assumption 4). -/
def Obligations.AnExpiryDuringAStepIsLatched : Prop :=
  ∀ (s t : State) (expiry : Arrival),
    s.env.turn = .work expiry → (s.expiryPending = true ∨ s.env.inputs ≠ []) → step s = .next t →
    (expiry = .none → t.expiryPending = false) ∧
    (expiry = .late → t.expiryPending = true) ∧
    (expiry = .early → t.expiryPending = true ∨
      (s.expiryPending = false ∧ s.eng.phase = .armed ∧ ∃ a rest, s.env.inputs = .bus a :: rest ∧
        a.addr = s.cfg.baseAddr + 0x18 ∧
        (a.write = some (encode .engBegin) ∨ a.write = some (encode .engEnd))))

/-- The transitions of the engine, and that nothing else changes its state (44_engine.md R401); reset, which
the table leaves to 70_reset_and_hazards.md R500, is named beside them. -/
def Obligations.EngineTransitions : Prop :=
  ∀ s t : State, step s = .next t →
    match s.eng.phase, t.eng.phase with
    | .stopped, .stopped => True
    | .stopped, .armed => s.StepsCommand .engBegin ∧ t.fg.res0 = 1#32
    | .stopped, .inHandler => False
    | .armed, .armed => True
    | .armed, .stopped =>
      (s.StepsCommand .engBegin ∧ t.sticky.beginFail = true ∧ t.fg.res0 = 0#32) ∨
      s.StepsCommand .engEnd ∨
      (s.StepsExpiry ∧ s.eng.cb = 0#32 ∧ t.sticky.rearmFail = true) ∨ s.StepsReset
    | .armed, .inHandler => s.StepsExpiry ∧ s.eng.cb ≠ 0#32
    | .inHandler, .inHandler => t.eng = s.eng
    | .inHandler, .armed => s.StepsCommand .engReturn
    | .inHandler, .stopped => (s.StepsCommand .engReturn ∧ t.sticky.rearmFail = true) ∨ s.StepsReset

/-! ## Reset (70_reset_and_hazards.md R500, R501) -/

/-- The reset input, whatever the state is, an expiry latched or an access in front: every piece of the block's
state at its reset value, and no call to an agent (70_reset_and_hazards.md R500, R501). The model's choices: what
lies outside the block stays as it is (assumption 13), and the list of turns that says when the reset comes
(assumption 4). -/
def Obligations.ResetInputResetsTheBlock : Prop :=
  ∀ s : State, s.env.turn = .reset →
    step s = .next
      { State.resetWith s.cfg s.units.counts with env := { s.env with turns := s.env.turns.tail } }

/-- The registers, the engine and the units after reset (10_state.md R52, R74 to R77, 70_reset_and_hazards.md
R501), IRQ (60_exceptions.md R466) and the envelope increments (43_envelopes.md R321, R341,
70_reset_and_hazards.md R502). -/
def Obligations.ResetValues : Prop :=
  ∀ (p : Config.Params) (n : Config.Counts) (s : State), s = State.resetWith p n →
    s.Reads 0x00 0x4B4F4531#32 ∧ s.Reads 0x14 0#32 ∧ s.Reads 0x1C 0#32 ∧ s.Reads 0x20 0#32 ∧
    s.Reads 0x24 0#32 ∧ s.Reads 0x28 0#32 ∧
    (∀ k : Fin 5, s.fg.op k = 0#32 ∧ s.isr.op k = 0#32) ∧
    (∀ k : Fin 8, s.fg.res k = 0#32 ∧ s.isr.res k = 0#32) ∧
    s.expiryPending = false ∧ s.irq = false ∧ s.cfg = p ∧ s.units.counts = n ∧
    s.eng = { phase := .stopped, cb := 0#32, rate := 0#32, period := 0#32, pin := 0#32 } ∧
    (∀ a : PaccState, (a ∈ s.units.pacc ∨ (∃ o ∈ s.units.osc, o.acc = a) ∨ ∃ l ∈ s.units.lfo, l.acc = a) →
      a = { phase := 0#64, inc := 0#64, freq := 0#32, sr := 0x46AC4400#32 }) ∧
    (∀ o ∈ s.units.osc, o.table = 0#8 ∧ o.amp = 0x3F800000#32) ∧
    (∀ o ∈ s.units.onepole, o.cutoff = 0x447A0000#32 ∧ o.sr = 0x46AC4400#32 ∧ o.mode = .lowPass ∧
      o.lp = 0#32) ∧
    (∀ v ∈ s.units.svf, v.cutoff = 0x447A0000#32 ∧ v.res = 0x3F3504F3#32 ∧ v.sr = 0x46AC4400#32 ∧
      v.low = 0#32 ∧ v.band = 0#32 ∧ v.high = 0#32 ∧ v.notch = 0#32) ∧
    (∀ b ∈ s.units.biquad, b.type = .lowPass ∧ b.cutoff = 0x447A0000#32 ∧ b.sr = 0x46AC4400#32 ∧
      b.x1 = 0#32 ∧ b.x2 = 0#32 ∧ b.y1 = 0#32 ∧ b.y2 = 0#32) ∧
    (∀ d ∈ s.units.dc, d.x1 = 0#32 ∧ d.y1 = 0#32) ∧
    (∀ e ∈ s.units.adsr, e.stage = .idle ∧ e.level = 0#32 ∧ e.target = 0#32 ∧ e.inc = 0#32 ∧
      e.attack = 0x3C23D70A#32 ∧ e.decay = 0x3DCCCCCD#32 ∧ e.sustain = 0x3F000000#32 ∧
      e.release = 0x3E4CCCCD#32 ∧ e.sr = 0x46AC4400#32 ∧
      e.attackInc = 0x3B949B93#32 ∧ e.decayInc = 0x396DC5B8#32 ∧ e.releaseInc = 0x396DC5B8#32) ∧
    (∀ e ∈ s.units.ar, e.stage = .idle ∧ e.level = 0#32 ∧ e.inc = 0#32 ∧ e.attack = 0x3C23D70A#32 ∧
      e.release = 0x3E4CCCCD#32 ∧ e.sr = 0x46AC4400#32 ∧
      e.attackInc = 0x3B949B93#32 ∧ e.releaseInc = 0x396DC5B8#32) ∧
    ∀ l ∈ s.units.lfo, l.shape = .sine ∧ l.rng = 0x92D68CA2#32 ∧ l.held = 0#32 ∧ l.out = 0#32

/-- Every invariant of this file holds after reset, whatever the parameters the spec allows
(10_state.md R60 to R70, 43_envelopes.md R331, R348, 70_reset_and_hazards.md R501). -/
def Obligations.ResetMeetsTheInvariants : Prop :=
  ∀ (p : Config.Params) (n : Config.Counts) (s : State), p.Valid → n.Valid → s = State.resetWith p n →
    s.eng.Ok ∧ s.AccumulatorsOk ∧ s.OscillatorsOk ∧ s.ParametersOk ∧ (∀ e ∈ s.units.adsr, e.Ok) ∧
    (∀ e ∈ s.units.ar, e.Ok) ∧ s.DerivedOk

/-! ## The unit commands

Each statement gives the next state whole: the one record that changes, the result registers of the current
bank (`putRes`, see `OperandAndResultRegisters`), and nothing else. -/

/-- `PACC_SET_FREQ`, `PACC_SET_SR`, `PACC_SET_PHASE` and `PACC_TICK`
(41_phase_oscillator.md R200, R202 to R204, R210 to R213). -/
def Obligations.PaccCommands : Prop :=
  ∀ (s : State) (u : U8) (a : PaccState), s.units.pacc[u.toNat]? = some a →
    (∀ freq, freq = clampf (s.opF32 0) zeroF32 (mulF32 a.sr halfF32) →
      exec (.paccSetFreq u) s = .next { s with units := { s.units with
        pacc := s.units.pacc.set u.toNat
          { a with freq := freq, inc := divF64 (widenF32 freq) (widenF32 a.sr) } } }) ∧
    (∀ sr freq, sr = clampf (s.opF32 0) Config.unitSrMin Config.unitSrMax →
      freq = clampf a.freq zeroF32 (mulF32 sr halfF32) →
      exec (.paccSetSr u) s = .next { s with units := { s.units with
        pacc := s.units.pacc.set u.toNat
          { a with sr := sr, freq := freq, inc := divF64 (widenF32 freq) (widenF32 sr) } } }) ∧
    (∀ p r, p = s.opF64 → r = subF64 p (intToF64 (floorF64 p)) →
      exec (.paccSetPhase u) s = .next { s with units := { s.units with
        pacc := s.units.pacc.set u.toNat
          { a with phase := if isFinite64 p = false ∨ leF64 oneF64 r = true ∨ isZero64 r = true
            then zeroF64 else r } } }) ∧
    (∀ sum ph, sum = addF64 a.phase a.inc →
      ph = (if leF64 oneF64 sum then subF64 sum oneF64 else sum) →
      exec (.paccTick u) s = .next (State.putRes
        { s with units := { s.units with pacc := s.units.pacc.set u.toNat { a with phase := ph } } }
        [narrowF64 ph]))

/-- `OSC_SET_FREQ`, `OSC_SET_SR`, `OSC_SET_PHASE`, `OSC_SET_AMP` and `OSC_SET_TABLE`
(41_phase_oscillator.md R202 to R204, R220 to R224). -/
def Obligations.OscillatorSetters : Prop :=
  ∀ (s : State) (u : U8) (o : OscState), s.units.osc[u.toNat]? = some o →
    (∀ freq, freq = clampf (s.opF32 0) zeroF32 (mulF32 o.acc.sr halfF32) →
      exec (.oscSetFreq u) s = .next { s with units := { s.units with
        osc := s.units.osc.set u.toNat { o with acc := { o.acc with
          freq := freq, inc := divF64 (widenF32 freq) (widenF32 o.acc.sr) } } } }) ∧
    (∀ sr freq, sr = clampf (s.opF32 0) Config.unitSrMin Config.unitSrMax →
      freq = clampf o.acc.freq zeroF32 (mulF32 sr halfF32) →
      exec (.oscSetSr u) s = .next { s with units := { s.units with
        osc := s.units.osc.set u.toNat { o with acc := { o.acc with
          sr := sr, freq := freq, inc := divF64 (widenF32 freq) (widenF32 sr) } } } }) ∧
    (∀ p r, p = s.opF64 → r = subF64 p (intToF64 (floorF64 p)) →
      exec (.oscSetPhase u) s = .next { s with units := { s.units with
        osc := s.units.osc.set u.toNat { o with acc := { o.acc with
          phase := if isFinite64 p = false ∨ leF64 oneF64 r = true ∨ isZero64 r = true
            then zeroF64 else r } } } }) ∧
    exec (.oscSetAmp u) s = .next { s with units := { s.units with
      osc := s.units.osc.set u.toNat { o with amp := clampf (s.opF32 0) zeroF32 oneF32 } } } ∧
    (∀ t : U8, t.toNat < s.cfg.nTables →
      exec (.oscSetTable u t) s = .next { s with units := { s.units with
        osc := s.units.osc.set u.toNat { o with table := t } } })

/-- `OSC_PROCESS` and `WT_LOOKUP`: the tick, the interpolated lookup and the scaling
(41_phase_oscillator.md R200, R201, R225, R230). The lookup at a finite index is said of parameters that
00_scope.md R8 allows and of a table there is. -/
def Obligations.OscillatorProcessAndLookup : Prop :=
  (∀ (s : State) (u : U8) (o : OscState), s.units.osc[u.toNat]? = some o →
    ∀ sum ph p, sum = addF64 o.acc.phase o.acc.inc →
      ph = (if leF64 oneF64 sum then subF64 sum oneF64 else sum) → p = narrowF64 ph →
      exec (.oscProcess u) s = .next (State.putRes
        { s with units := { s.units with
          osc := s.units.osc.set u.toNat { o with acc := { o.acc with phase := ph } } } }
        [mulF32 (wtInterp s.cfg o.table.toNat (mulF32 p (intToF32 s.cfg.tableSize))) o.amp, p])) ∧
  (∀ (s : State) (t : U8), t.toNat < s.cfg.nTables →
    exec (.wtLookup t) s = .next (s.putRes [wtInterp s.cfg t.toNat (s.opF32 0)])) ∧
  ∀ (p : Config.Params) (t : Nat) (x : F32),
    (isFinite32 x = false → wtInterp p t x = zeroF32) ∧
    ∀ i0 i1 s0 s1, p.Valid → t < p.nTables → isFinite32 x = true → i0 = (floorF32 x % (p.tableSize : Int)).toNat →
      i1 = (i0 + 1) % p.tableSize →
      s0 = mulF32 (intToF32 ((p.wtData.getD t []).getD i0 0#16).toInt) twoPowNeg15F32 →
      s1 = mulF32 (intToF32 ((p.wtData.getD t []).getD i1 0#16).toInt) twoPowNeg15F32 →
      wtInterp p t x =
        addF32 s0 (mulF32 (subF32 x (intToF32 (floorF32 x))) (subF32 s1 s0))

/-- `ONEPOLE_SET_CUTOFF`, `ONEPOLE_SET_SR`, `ONEPOLE_SET_MODE` and `ONEPOLE_RESET`
(42_filters.md R250 to R253, R255). -/
def Obligations.OnePoleSettersAndReset : Prop :=
  ∀ (s : State) (u : U8) (o : OnePoleState), s.units.onepole[u.toNat]? = some o →
    (∀ cutoff, cutoff = clampf (s.opF32 0) Config.cutoffMinHz (mulF32 o.sr halfF32) →
      exec (.onepoleSetCutoff u) s = .next { s with units := { s.units with
        onepole := s.units.onepole.set u.toNat
          { o with
            cutoff := cutoff
            alpha := subF32 oneF32
              (Config.fnExp (negF32 (divF32 (mulF32 Config.twoPi32 cutoff) o.sr))) } } }) ∧
    (∀ sr cutoff, sr = clampf (s.opF32 0) Config.unitSrMin Config.unitSrMax →
      cutoff = clampf o.cutoff Config.cutoffMinHz (mulF32 sr halfF32) →
      exec (.onepoleSetSr u) s = .next { s with units := { s.units with
        onepole := s.units.onepole.set u.toNat
          { o with
            sr := sr
            cutoff := cutoff
            alpha := subF32 oneF32
              (Config.fnExp (negF32 (divF32 (mulF32 Config.twoPi32 cutoff) sr))) } } }) ∧
    exec (.onepoleSetMode u 0#8) s = .next { s with units := { s.units with
      onepole := s.units.onepole.set u.toNat { o with mode := .lowPass } } } ∧
    exec (.onepoleSetMode u 1#8) s = .next { s with units := { s.units with
      onepole := s.units.onepole.set u.toNat { o with mode := .highPass } } } ∧
    exec (.onepoleReset u) s = .next { s with units := { s.units with
      onepole := s.units.onepole.set u.toNat { o with lp := zeroF32 } } }

/-- `ONEPOLE_PROCESS` (42_filters.md R254). -/
def Obligations.OnePoleProcess : Prop :=
  ∀ (s : State) (u : U8) (o : OnePoleState) (x lp hp : F32), s.units.onepole[u.toNat]? = some o →
    x = s.opF32 0 → lp = addF32 o.lp (mulF32 o.alpha (subF32 x o.lp)) → hp = subF32 x lp →
    exec (.onepoleProcess u) s = .next (State.putRes
      { s with units := { s.units with onepole := s.units.onepole.set u.toNat { o with lp := lp } } }
      [if o.mode = .lowPass then lp else hp, lp, hp])

/-- `SVF_SET_CUTOFF`, `SVF_SET_RES`, `SVF_SET_SR` and `SVF_RESET` (42_filters.md R260 to R263, R265). -/
def Obligations.SvfSettersAndReset : Prop :=
  ∀ (s : State) (u : U8) (v : SvfState) (f : F32 → F32 → F32) (q : F32 → F32),
    s.units.svf[u.toNat]? = some v →
    (∀ cutoff sr, f cutoff sr = clampf (mulF32 twoF32
      (Config.fnSin (divF32 (mulF32 Config.pi32 cutoff) sr))) Config.svfFMin Config.svfFMax) →
    (∀ res, q res = clampf (divF32 oneF32 res) Config.svfQMin Config.svfQMax) →
    (∀ cutoff, cutoff = clampf (s.opF32 0) Config.cutoffMinHz (mulF32 v.sr halfF32) →
      exec (.svfSetCutoff u) s = .next { s with units := { s.units with
        svf := s.units.svf.set u.toNat
          { v with cutoff := cutoff, f := f cutoff v.sr, q := q v.res } } }) ∧
    (∀ res, res = clampf (s.opF32 0) Config.svfResMin Config.svfResMax →
      exec (.svfSetRes u) s = .next { s with units := { s.units with
        svf := s.units.svf.set u.toNat { v with res := res, f := f v.cutoff v.sr, q := q res } } }) ∧
    (∀ sr cutoff, sr = clampf (s.opF32 0) Config.unitSrMin Config.unitSrMax →
      cutoff = clampf v.cutoff Config.cutoffMinHz (mulF32 sr halfF32) →
      exec (.svfSetSr u) s = .next { s with units := { s.units with
        svf := s.units.svf.set u.toNat
          { v with sr := sr, cutoff := cutoff, f := f cutoff sr, q := q v.res } } }) ∧
    exec (.svfReset u) s = .next { s with units := { s.units with
      svf := s.units.svf.set u.toNat
        { v with low := zeroF32, band := zeroF32, high := zeroF32, notch := zeroF32 } } }

/-- `SVF_PROCESS`, with the denormal suppression of the two integrators (42_filters.md R264). -/
def Obligations.SvfProcess : Prop :=
  ∀ (s : State) (u : U8) (v : SvfState) (x low0 high band0 low band notch : F32),
    s.units.svf[u.toNat]? = some v → x = s.opF32 0 →
    low0 = addF32 v.low (mulF32 v.f v.band) →
    high = subF32 (subF32 x low0) (mulF32 v.q v.band) →
    band0 = addF32 (mulF32 v.f high) v.band →
    low = (if ltF32 (absF32 low0) Config.svfSnap then zeroF32 else low0) →
    band = (if ltF32 (absF32 band0) Config.svfSnap then zeroF32 else band0) →
    notch = addF32 high low →
    exec (.svfProcess u) s = .next (State.putRes
      { s with units := { s.units with
        svf := s.units.svf.set u.toNat { v with low := low, high := high, band := band, notch := notch } } }
      [low, high, band, notch])

/-- `BQ_SET_TYPE`, and the derivation it ends in, for each prototype: the five coefficients
(42_filters.md R280, R283). -/
def Obligations.BiquadPrototypes : Prop :=
  ∀ (s : State) (u : U8) (b lp hp bp : BiquadState) (w0 cs sn al a0 a1 a2 b0 : F32),
    s.units.biquad[u.toNat]? = some b →
    w0 = divF32 (mulF32 Config.twoPi32 b.cutoff) b.sr → cs = Config.fnCos w0 → sn = Config.fnSin w0 →
    al = divF32 sn (mulF32 twoF32 Config.bqQ) → a0 = addF32 oneF32 al →
    a1 = divF32 (mulF32 negTwoF32 cs) a0 → a2 = divF32 (subF32 oneF32 al) a0 →
    (b0 = divF32 (divF32 (subF32 oneF32 cs) twoF32) a0 →
      lp = { b with
        type := .lowPass, b0 := b0, b1 := divF32 (subF32 oneF32 cs) a0, b2 := b0, a1 := a1, a2 := a2 } →
      BiquadState.derive { b with type := .lowPass } = lp ∧
      exec (.bqSetType u 0#8) s =
        .next { s with units := { s.units with biquad := s.units.biquad.set u.toNat lp } }) ∧
    (b0 = divF32 (divF32 (addF32 oneF32 cs) twoF32) a0 →
      hp = { b with
        type := .highPass, b0 := b0, b1 := divF32 (negF32 (addF32 oneF32 cs)) a0, b2 := b0, a1 := a1,
        a2 := a2 } →
      BiquadState.derive { b with type := .highPass } = hp ∧
      exec (.bqSetType u 1#8) s =
        .next { s with units := { s.units with biquad := s.units.biquad.set u.toNat hp } }) ∧
    (b0 = divF32 al a0 →
      bp = { b with
        type := .bandPass, b0 := b0, b1 := zeroF32, b2 := negF32 b0, a1 := a1, a2 := a2 } →
      BiquadState.derive { b with type := .bandPass } = bp ∧
      exec (.bqSetType u 2#8) s =
        .next { s with units := { s.units with biquad := s.units.biquad.set u.toNat bp } })

/-- `BQ_SET_CUTOFF`, `BQ_SET_SR`, `BQ_SET_COEFFS` and `BQ_RESET`: what they store, that a direct section keeps
its coefficients, and that a derived section gets those of its prototype
(42_filters.md R281, R282, R284, R286). -/
def Obligations.BiquadSettersAndReset : Prop :=
  ∀ (s : State) (u : U8) (b : BiquadState), s.units.biquad[u.toNat]? = some b →
    (∀ cutoff, cutoff = clampf (s.opF32 0) Config.cutoffMinHz (mulF32 b.sr halfF32) →
      (b.type = .direct → exec (.bqSetCutoff u) s = .next { s with units := { s.units with
        biquad := s.units.biquad.set u.toNat { b with cutoff := cutoff } } }) ∧
      (b.type ≠ .direct → exec (.bqSetCutoff u) s = .next { s with units := { s.units with
        biquad := s.units.biquad.set u.toNat
          (BiquadState.derive { b with cutoff := cutoff }) } })) ∧
    (∀ sr cutoff, sr = clampf (s.opF32 0) Config.unitSrMin Config.unitSrMax →
      cutoff = clampf b.cutoff Config.cutoffMinHz (mulF32 sr halfF32) →
      (b.type = .direct → exec (.bqSetSr u) s = .next { s with units := { s.units with
        biquad := s.units.biquad.set u.toNat { b with sr := sr, cutoff := cutoff } } }) ∧
      (b.type ≠ .direct → exec (.bqSetSr u) s = .next { s with units := { s.units with
        biquad := s.units.biquad.set u.toNat
          (BiquadState.derive { b with sr := sr, cutoff := cutoff }) } })) ∧
    exec (.bqSetCoeffs u) s = .next { s with units := { s.units with
      biquad := s.units.biquad.set u.toNat
        { b with
          type := .direct, b0 := s.opF32 0, b1 := s.opF32 1, b2 := s.opF32 2, a1 := s.opF32 3,
          a2 := s.opF32 4 } } } ∧
    exec (.bqReset u) s = .next { s with units := { s.units with
      biquad := s.units.biquad.set u.toNat
        { b with x1 := zeroF32, x2 := zeroF32, y1 := zeroF32, y2 := zeroF32 } } }

/-- `BQ_PROCESS`, `DC_PROCESS` and `DC_RESET` (42_filters.md R285, R300, R301). -/
def Obligations.BiquadAndDcProcess : Prop :=
  (∀ (s : State) (u : U8) (b : BiquadState) (x y : F32), s.units.biquad[u.toNat]? = some b →
    x = s.opF32 0 →
    y = subF32 (subF32 (addF32 (addF32 (mulF32 b.b0 x) (mulF32 b.b1 b.x1)) (mulF32 b.b2 b.x2))
      (mulF32 b.a1 b.y1)) (mulF32 b.a2 b.y2) →
    exec (.bqProcess u) s = .next (State.putRes
      { s with units := { s.units with
        biquad := s.units.biquad.set u.toNat { b with x2 := b.x1, x1 := x, y2 := b.y1, y1 := y } } }
      [y])) ∧
  (∀ (s : State) (u : U8) (d : DcState) (x y : F32), s.units.dc[u.toNat]? = some d → x = s.opF32 0 →
    y = addF32 (subF32 x d.x1) (mulF32 0x3F7EB852#32 d.y1) →
    exec (.dcProcess u) s = .next (State.putRes
      { s with units := { s.units with dc := s.units.dc.set u.toNat { x1 := x, y1 := y } } } [y]) ∧
    exec (.dcReset u) s = .next
      { s with units := { s.units with dc := s.units.dc.set u.toNat { x1 := zeroF32, y1 := zeroF32 } } })

/-- `ADSR_SET_ATTACK`, `ADSR_SET_DECAY`, `ADSR_SET_SUSTAIN`, `ADSR_SET_RELEASE` and `ADSR_SET_SR`: the stored
parameter and the three increments derived from the parameters; stage, level, target and current increment
stay (43_envelopes.md R320 to R326). -/
def Obligations.AdsrSetters : Prop :=
  ∀ (s : State) (u : U8) (e : AdsrState) (t : F32) (inc : F32 → F32 → F32 → F32),
    s.units.adsr[u.toNat]? = some e →
    t = (if isNaN32 (s.opF32 0) ∨ ltF32 (s.opF32 0) Config.envTimeMin then Config.envTimeMin
      else s.opF32 0) →
    (∀ dL time sr, inc dL time sr = maxf (divF32 dL (mulF32 time sr)) Config.envIncMin) →
    exec (.adsrSetAttack u) s = .next { s with units := { s.units with
      adsr := s.units.adsr.set u.toNat
        { e with
          attack := t
          attackInc := inc oneF32 t e.sr
          decayInc := inc (subF32 oneF32 e.sustain) e.decay e.sr
          releaseInc := inc oneF32 e.release e.sr } } } ∧
    exec (.adsrSetDecay u) s = .next { s with units := { s.units with
      adsr := s.units.adsr.set u.toNat
        { e with
          decay := t
          attackInc := inc oneF32 e.attack e.sr
          decayInc := inc (subF32 oneF32 e.sustain) t e.sr
          releaseInc := inc oneF32 e.release e.sr } } } ∧
    (∀ sustain, sustain = clampf (s.opF32 0) zeroF32 oneF32 →
      exec (.adsrSetSustain u) s = .next { s with units := { s.units with
        adsr := s.units.adsr.set u.toNat
          { e with
            sustain := sustain
            attackInc := inc oneF32 e.attack e.sr
            decayInc := inc (subF32 oneF32 sustain) e.decay e.sr
            releaseInc := inc oneF32 e.release e.sr } } }) ∧
    exec (.adsrSetRelease u) s = .next { s with units := { s.units with
      adsr := s.units.adsr.set u.toNat
        { e with
          release := t
          attackInc := inc oneF32 e.attack e.sr
          decayInc := inc (subF32 oneF32 e.sustain) e.decay e.sr
          releaseInc := inc oneF32 t e.sr } } } ∧
    (∀ sr, sr = clampf (s.opF32 0) Config.unitSrMin Config.unitSrMax →
      exec (.adsrSetSr u) s = .next { s with units := { s.units with
        adsr := s.units.adsr.set u.toNat
          { e with
            sr := sr
            attackInc := inc oneF32 e.attack sr
            decayInc := inc (subF32 oneF32 e.sustain) e.decay sr
            releaseInc := inc oneF32 e.release sr } } })

/-- `ADSR_NOTE_ON` in every stage, and `ADSR_NOTE_OFF` in Idle and outside it
(43_envelopes.md R327, R328). -/
def Obligations.AdsrNotes : Prop :=
  ∀ (s : State) (u : U8) (e : AdsrState), s.units.adsr[u.toNat]? = some e →
    exec (.adsrNoteOn u) s = .next { s with units := { s.units with
      adsr := s.units.adsr.set u.toNat { e with stage := .attack, target := oneF32, inc := e.attackInc } } } ∧
    (e.stage = .idle → exec (.adsrNoteOff u) s = .next s) ∧
    (e.stage ≠ .idle → exec (.adsrNoteOff u) s = .next { s with units := { s.units with
      adsr := s.units.adsr.set u.toNat
        { e with stage := .release, target := zeroF32, inc := negF32 e.releaseInc } } })

/-- `ADSR_PROCESS`: the stage machine, at most one transition a tick, and the two results with the stage's
code (43_envelopes.md R329). -/
def Obligations.AdsrProcess : Prop :=
  ∀ (s : State) (u : U8) (e e' : AdsrState) (level code : F32), s.units.adsr[u.toNat]? = some e →
    level = addF32 e.level e.inc →
    e' = (match e.stage with
      | .idle => e
      | .attack =>
        if leF32 oneF32 level then
          { e with level := oneF32, stage := .decay, target := e.sustain, inc := negF32 e.decayInc }
        else { e with level := level }
      | .decay =>
        if leF32 level e.target then { e with level := e.target, stage := .sustain, inc := zeroF32 }
        else { e with level := level }
      | .sustain => e
      | .release =>
        if leF32 level zeroF32 then
          { e with level := zeroF32, stage := .idle, target := zeroF32, inc := zeroF32 }
        else { e with level := level }) →
    code = (match e'.stage with
      | .idle => 0#32 | .attack => 1#32 | .decay => 2#32 | .sustain => 3#32 | .release => 4#32) →
    exec (.adsrProcess u) s = .next (State.putRes
      { s with units := { s.units with adsr := s.units.adsr.set u.toNat e' } } [e'.level, code])

/-- A note-off during Attack: the next tick gives a level strictly below the level before it, unless that is
0 already (43_envelopes.md R371). -/
def Obligations.NoteOffDuringAttackFalls : Prop :=
  ∀ (s : State) (u : U8) (e : AdsrState), s.units.adsr[u.toNat]? = some e → e.stage = .attack →
    leF32 zeroF32 e.level = true → leF32 e.level oneF32 = true →
    leF32 Config.envIncMin e.releaseInc = true →
    ∃ s1 s2 e2, exec (.adsrNoteOff u) s = .next s1 ∧ exec (.adsrProcess u) s1 = .next s2 ∧
      s2.units.adsr[u.toNat]? = some e2 ∧
      (ltF32 zeroF32 e.level = true → ltF32 e2.level e.level = true) ∧
      (leF32 e.level zeroF32 = true → e2.level = zeroF32 ∧ e2.stage = .idle)

/-- The commands of an AR envelope but for its getter (43_envelopes.md R320, R321, R341 to R346). -/
def Obligations.ArCommands : Prop :=
  ∀ (s : State) (u : U8) (e e' : ArState) (t level code : F32) (inc : F32 → F32 → F32),
    s.units.ar[u.toNat]? = some e →
    t = (if isNaN32 (s.opF32 0) ∨ ltF32 (s.opF32 0) Config.envTimeMin then Config.envTimeMin
      else s.opF32 0) →
    (∀ time sr, inc time sr = maxf (divF32 oneF32 (mulF32 time sr)) Config.envIncMin) →
    level = addF32 e.level e.inc →
    e' = (match e.stage with
      | .idle => e
      | .attack =>
        if leF32 oneF32 level then
          { e with level := oneF32, stage := .release, inc := negF32 e.releaseInc }
        else { e with level := level }
      | .release =>
        if leF32 level zeroF32 then { e with level := zeroF32, stage := .idle, inc := zeroF32 }
        else { e with level := level }) →
    code = (match e'.stage with | .idle => 0#32 | .attack => 1#32 | .release => 4#32) →
    exec (.arSetAttack u) s = .next { s with units := { s.units with
      ar := s.units.ar.set u.toNat
        { e with attack := t, attackInc := inc t e.sr, releaseInc := inc e.release e.sr } } } ∧
    exec (.arSetRelease u) s = .next { s with units := { s.units with
      ar := s.units.ar.set u.toNat
        { e with release := t, attackInc := inc e.attack e.sr, releaseInc := inc t e.sr } } } ∧
    (∀ sr, sr = clampf (s.opF32 0) Config.unitSrMin Config.unitSrMax →
      exec (.arSetSr u) s = .next { s with units := { s.units with
        ar := s.units.ar.set u.toNat
          { e with sr := sr, attackInc := inc e.attack sr, releaseInc := inc e.release sr } } }) ∧
    exec (.arTrigger u) s = .next { s with units := { s.units with
      ar := s.units.ar.set u.toNat { e with stage := .attack, inc := e.attackInc } } } ∧
    exec (.arProcess u) s = .next (State.putRes
      { s with units := { s.units with ar := s.units.ar.set u.toNat e' } } [e'.level, code])

/-- `LFO_SET_FREQ`, `LFO_SET_SR`, `LFO_SET_SHAPE` and `LFO_SET_SEED`
(43_envelopes.md R363 to R366, 41_phase_oscillator.md R202, R203). -/
def Obligations.LfoSetters : Prop :=
  ∀ (s : State) (u : U8) (l : LfoState), s.units.lfo[u.toNat]? = some l →
    (∀ freq, freq = clampf (s.opF32 0) zeroF32 (mulF32 l.acc.sr halfF32) →
      exec (.lfoSetFreq u) s = .next { s with units := { s.units with
        lfo := s.units.lfo.set u.toNat { l with acc := { l.acc with
          freq := freq, inc := divF64 (widenF32 freq) (widenF32 l.acc.sr) } } } }) ∧
    (∀ sr freq, sr = clampf (s.opF32 0) Config.unitSrMin Config.unitSrMax →
      freq = clampf l.acc.freq zeroF32 (mulF32 sr halfF32) →
      exec (.lfoSetSr u) s = .next { s with units := { s.units with
        lfo := s.units.lfo.set u.toNat { l with acc := { l.acc with
          sr := sr, freq := freq, inc := divF64 (widenF32 freq) (widenF32 sr) } } } }) ∧
    (∀ c ∈ [(0#8, LfoShape.sine), (1#8, .triangle), (2#8, .sawtooth), (3#8, .square), (4#8, .sampleHold),
        (5#8, .noise)],
      exec (.lfoSetShape u c.1) s = .next { s with units := { s.units with
        lfo := s.units.lfo.set u.toNat { l with shape := c.2 } } }) ∧
    (s.opU32 0 = 0#32 → exec (.lfoSetSeed u) s = .next { s with units := { s.units with
      lfo := s.units.lfo.set u.toNat { l with rng := 0x92D68CA2#32 } } }) ∧
    (s.opU32 0 ≠ 0#32 → exec (.lfoSetSeed u) s = .next { s with units := { s.units with
      lfo := s.units.lfo.set u.toNat { l with rng := s.opU32 0 } } })

/-- `LFO_PROCESS` in each shape: the tick, the output, and when the generator advances
(43_envelopes.md R360 to R362, R367, 41_phase_oscillator.md R200). -/
def Obligations.LfoProcess : Prop :=
  ∀ (s : State) (u : U8) (l l' : LfoState) (sum ph : F64) (p : F32) (w1 w2 rng r : U32),
    s.units.lfo[u.toNat]? = some l →
    sum = addF64 l.acc.phase l.acc.inc →
    ph = (if leF64 oneF64 sum then subF64 sum oneF64 else sum) → p = narrowF64 ph →
    w1 = l.rng ^^^ (l.rng <<< 13) → w2 = w1 ^^^ (w1 >>> 17) → rng = w2 ^^^ (w2 <<< 5) →
    r = mulF32 (intToF32 rng.toInt) 0x30000000#32 →
    l' = { l with acc := { l.acc with phase := ph } } →
    (l.shape = .sine → exec (.lfoProcess u) s = .next (State.putRes { s with units := { s.units with
      lfo := s.units.lfo.set u.toNat { l' with out := Config.fnSin (mulF32 Config.twoPi32 p) } } }
      [Config.fnSin (mulF32 Config.twoPi32 p)])) ∧
    (∀ y, l.shape = .triangle → y = (if ltF32 p halfF32 then subF32 (mulF32 fourF32 p) oneF32
        else subF32 threeF32 (mulF32 fourF32 p)) →
      exec (.lfoProcess u) s = .next (State.putRes { s with units := { s.units with
        lfo := s.units.lfo.set u.toNat { l' with out := y } } } [y])) ∧
    (∀ y, l.shape = .sawtooth → y = subF32 (mulF32 twoF32 p) oneF32 →
      exec (.lfoProcess u) s = .next (State.putRes { s with units := { s.units with
        lfo := s.units.lfo.set u.toNat { l' with out := y } } } [y])) ∧
    (∀ y, l.shape = .square → y = (if ltF32 p halfF32 then oneF32 else negOneF32) →
      exec (.lfoProcess u) s = .next (State.putRes { s with units := { s.units with
        lfo := s.units.lfo.set u.toNat { l' with out := y } } } [y])) ∧
    (l.shape = .sampleHold → leF64 oneF64 sum = true →
      exec (.lfoProcess u) s = .next (State.putRes { s with units := { s.units with
        lfo := s.units.lfo.set u.toNat { l' with rng := rng, held := r, out := r } } } [r])) ∧
    (l.shape = .sampleHold → leF64 oneF64 sum = false →
      exec (.lfoProcess u) s = .next (State.putRes { s with units := { s.units with
        lfo := s.units.lfo.set u.toNat { l' with out := l.held } } } [l.held])) ∧
    (l.shape = .noise →
      exec (.lfoProcess u) s = .next (State.putRes { s with units := { s.units with
        lfo := s.units.lfo.set u.toNat { l' with rng := rng, out := r } } } [r]))

/-- `PACC_GET`, `OSC_GET` and `LFO_GET`: the results, and no other change
(41_phase_oscillator.md R214, R226, 43_envelopes.md R368). -/
def Obligations.AccumulatorGetters : Prop :=
  (∀ (s : State) (u : U8) (a : PaccState), s.units.pacc[u.toNat]? = some a →
    exec (.paccGet u) s = .next (s.putRes
      [a.phase.extractLsb' 0 32, a.phase.extractLsb' 32 32, a.inc.extractLsb' 0 32,
        a.inc.extractLsb' 32 32, a.freq, a.sr])) ∧
  (∀ (s : State) (u : U8) (o : OscState), s.units.osc[u.toNat]? = some o →
    exec (.oscGet u) s = .next (s.putRes
      [o.acc.phase.extractLsb' 0 32, o.acc.phase.extractLsb' 32 32, o.acc.inc.extractLsb' 0 32,
        o.acc.inc.extractLsb' 32 32, o.acc.freq, o.acc.sr, o.amp, o.table.setWidth 32])) ∧
  ∀ (s : State) (u : U8) (l : LfoState) (code : U32), s.units.lfo[u.toNat]? = some l →
    code = (match l.shape with
      | .sine => 0#32 | .triangle => 1#32 | .sawtooth => 2#32 | .square => 3#32 | .sampleHold => 4#32
      | .noise => 5#32) →
    exec (.lfoGet u) s = .next (s.putRes
      [l.acc.phase.extractLsb' 0 32, l.acc.phase.extractLsb' 32 32, l.acc.freq, l.acc.sr, code, l.rng,
        l.held, l.out])

/-- `ONEPOLE_GET`, `SVF_GET`, `BQ_GET` on both pages, `DC_GET`, `ADSR_GET` on both pages and `AR_GET`: the
results, and no other change (42_filters.md R256, R266, R287, R302, 43_envelopes.md R330, R347). -/
def Obligations.FilterAndEnvelopeGetters : Prop :=
  (∀ (s : State) (u : U8) (o : OnePoleState), s.units.onepole[u.toNat]? = some o →
    exec (.onepoleGet u) s = .next (s.putRes
      [o.cutoff, o.sr, o.alpha, o.lp, if o.mode = .lowPass then 0#32 else 1#32])) ∧
  (∀ (s : State) (u : U8) (v : SvfState), s.units.svf[u.toNat]? = some v →
    exec (.svfGet u) s = .next (s.putRes [v.low, v.high, v.band, v.notch, v.cutoff, v.res, v.f, v.q])) ∧
  (∀ (s : State) (u : U8) (b : BiquadState) (code : U32), s.units.biquad[u.toNat]? = some b →
    code = (match b.type with
      | .lowPass => 0#32 | .highPass => 1#32 | .bandPass => 2#32 | .direct => 3#32) →
    exec (.bqGet u 0#8) s = .next (s.putRes [b.b0, b.b1, b.b2, b.a1, b.a2, b.cutoff, b.sr, code]) ∧
    exec (.bqGet u 1#8) s = .next (s.putRes [b.x1, b.x2, b.y1, b.y2])) ∧
  (∀ (s : State) (u : U8) (d : DcState), s.units.dc[u.toNat]? = some d →
    exec (.dcGet u) s = .next (s.putRes [d.x1, d.y1])) ∧
  (∀ (s : State) (u : U8) (e : AdsrState) (code : U32), s.units.adsr[u.toNat]? = some e →
    code = (match e.stage with
      | .idle => 0#32 | .attack => 1#32 | .decay => 2#32 | .sustain => 3#32 | .release => 4#32) →
    exec (.adsrGet u 0#8) s = .next (s.putRes
      [e.level, code, e.target, e.inc, e.attack, e.decay, e.sustain, e.release]) ∧
    exec (.adsrGet u 1#8) s = .next (s.putRes [e.attackInc, e.decayInc, e.releaseInc, e.sr])) ∧
  ∀ (s : State) (u : U8) (e : ArState) (code : U32), s.units.ar[u.toNat]? = some e →
    code = (match e.stage with | .idle => 0#32 | .attack => 1#32 | .release => 4#32) →
    exec (.arGet u) s = .next (s.putRes
      [e.level, code, e.inc, e.attack, e.release, e.attackInc, e.releaseInc, e.sr])

/-! ## Invariants that every step keeps -/

/-- The engine record shows 0 while STOPPED and the rate and its period while it runs, and the handler is
entered with a callback alone (10_state.md R70, 44_engine.md R401 to R403, 60_exceptions.md R465). -/
def Obligations.EngineRecordInvariant : Prop :=
  ∀ s t : State, s.eng.Ok → step s = .next t → t.eng.Ok

/-- The phase accumulators keep their ranges: phase in [0, 1), increment in [0, 0.5], frequency up to Nyquist,
sample rate in its range (10_state.md R60, R61, 41_phase_oscillator.md R200). -/
def Obligations.AccumulatorInvariant : Prop :=
  ∀ s t : State, s.AccumulatorsOk → step s = .next t → t.AccumulatorsOk

/-- Tables exist, amplitudes are in [0, 1], no generator is in state 0, and every filter and envelope parameter
is in the range its setter clamps to (10_state.md R60, R62 to R69). -/
def Obligations.ParameterInvariant : Prop :=
  ∀ s t : State, s.OscillatorsOk ∧ s.ParametersOk → step s = .next t → t.OscillatorsOk ∧ t.ParametersOk

/-- Every ADSR envelope keeps the invariant of 43_envelopes.md R331: the level in [0, 1], and what each stage
says of level, target and increment. -/
def Obligations.AdsrInvariant : Prop :=
  ∀ s t : State, (∀ e ∈ s.units.adsr, e.Ok) → step s = .next t → ∀ e ∈ t.units.adsr, e.Ok

/-- Every AR envelope keeps the invariant of 43_envelopes.md R348. -/
def Obligations.ArInvariant : Prop :=
  ∀ s t : State, (∀ e ∈ s.units.ar, e.Ok) → step s = .next t → ∀ e ∈ t.units.ar, e.Ok

/-- Derived coefficients and increments always match the stored parameters; the direct biquad is the exception
(42_filters.md R245, 70_reset_and_hazards.md R521). -/
def Obligations.DerivedFieldsMatchParameters : Prop :=
  ∀ s t : State, s.DerivedOk → step s = .next t → t.DerivedOk

/-- No step changes the parameters, the wavetables or the number of units of a kind
(20_memory.md R107, 00_scope.md R8). -/
def Obligations.HardwareNeverChanges : Prop :=
  ∀ s t : State, step s = .next t → s.SameHardware t
end

