-- ==== Sys2Proof/Laws/Ieee.lean ====
section
/-! SUPPORT. Laws of the arithmetic: magnitudes order values, rounding is exact on representable values and
monotone, and what that gives for the sum, the quotient and the clamps. -/

namespace Sys2Proof.Machine

/-! ### Magnitudes -/

theorem magUnits_small {f : Fmt} {m : Nat} (h : m < 2 ^ f.mbits) : magUnits f m = m := by
  simp [magUnits, Nat.div_eq_of_lt h, Nat.mod_eq_of_lt h]

/-- A magnitude field written as exponent and significand. -/
theorem magUnits_succ (f : Fmt) (e r : Nat) (h : r < 2 ^ f.mbits) :
    magUnits f ((e + 1) * 2 ^ f.mbits + r) = (r + 2 ^ f.mbits) * 2 ^ e := by
  have hp : 0 < 2 ^ f.mbits := Nat.two_pow_pos _
  have hd : ((e + 1) * 2 ^ f.mbits + r) / 2 ^ f.mbits = e + 1 := by
    rw [Nat.add_comm, Nat.add_mul_div_right _ _ hp, Nat.div_eq_of_lt h, Nat.zero_add]
  have hm : ((e + 1) * 2 ^ f.mbits + r) % 2 ^ f.mbits = r := by
    rw [Nat.add_comm, Nat.add_mul_mod_self_right, Nat.mod_eq_of_lt h]
  simp [magUnits, hd, hm]

theorem magUnits_zero (f : Fmt) : magUnits f 0 = 0 := magUnits_small (Nat.two_pow_pos _)

/-- One more in the magnitude field is one quantum more. -/
theorem magUnits_add_one (f : Fmt) (m : Nat) :
    magUnits f (m + 1) = magUnits f m + 2 ^ (m / 2 ^ f.mbits - 1) := by
  have hp : 0 < 2 ^ f.mbits := Nat.two_pow_pos _
  obtain ⟨e, r, hr, rfl⟩ : ∃ e r, r < 2 ^ f.mbits ∧ m = e * 2 ^ f.mbits + r :=
    ⟨m / 2 ^ f.mbits, m % 2 ^ f.mbits, Nat.mod_lt _ hp, (Nat.div_add_mod' _ _).symm⟩
  have hd : (e * 2 ^ f.mbits + r) / 2 ^ f.mbits = e := by
    rw [Nat.add_comm, Nat.add_mul_div_right _ _ hp, Nat.div_eq_of_lt hr, Nat.zero_add]
  rw [hd]
  by_cases hlast : r + 1 = 2 ^ f.mbits
  · have hnext : e * 2 ^ f.mbits + r + 1 = (e + 1) * 2 ^ f.mbits + 0 := by
      rw [Nat.add_assoc, hlast]; ring
    rw [hnext, magUnits_succ f e 0 hp]
    cases e with
    | zero =>
      rw [show 0 * 2 ^ f.mbits + r = r by omega, magUnits_small hr]; simp; omega
    | succ k =>
      rw [magUnits_succ f k r hr, Nat.add_sub_cancel, ← hlast]; ring
  · have hr' : r + 1 < 2 ^ f.mbits := by omega
    cases e with
    | zero =>
      rw [show 0 * 2 ^ f.mbits + r + 1 = r + 1 by omega, show 0 * 2 ^ f.mbits + r = r by omega,
        magUnits_small hr, magUnits_small hr']; simp
    | succ k =>
      rw [Nat.add_assoc, magUnits_succ f k _ hr', magUnits_succ f k r hr, Nat.add_sub_cancel]; ring

theorem magUnits_strictMono (f : Fmt) : StrictMono (magUnits f) :=
  strictMono_nat_of_lt_succ fun m => by
    rw [magUnits_add_one]; exact Nat.lt_add_of_pos_right (Nat.two_pow_pos _)

@[simp] theorem magUnits_le_iff {f : Fmt} {a b : Nat} : magUnits f a ≤ magUnits f b ↔ a ≤ b :=
  (magUnits_strictMono f).le_iff_le

@[simp] theorem magUnits_lt_iff {f : Fmt} {a b : Nat} : magUnits f a < magUnits f b ↔ a < b :=
  (magUnits_strictMono f).lt_iff_lt

theorem magUnits_eq_zero {f : Fmt} {m : Nat} : magUnits f m = 0 ↔ m = 0 := by
  constructor
  · intro h
    by_contra hm
    have := magUnits_lt_iff (f := f) (a := 0) (b := m) |>.2 (Nat.pos_of_ne_zero hm)
    omega
  · rintro rfl; exact magUnits_zero f

/-! ### The nearest whole number -/

/-- The nearest whole number is at most half a step away. -/
theorem divNearestEven_bounds {n d : Nat} (hd : 0 < d) :
    2 * n ≤ (2 * divNearestEven n d + 1) * d ∧ 2 * divNearestEven n d * d ≤ 2 * n + d := by
  have h := Nat.div_add_mod n d
  have hlt := Nat.mod_lt n hd
  unfold divNearestEven
  generalize n / d = q at *
  generalize n % d = r at *
  subst h
  split <;> rename_i hc
  · have : d ≤ 2 * r := by omega
    constructor <;> nlinarith [Nat.mul_comm d q]
  · have : 2 * r ≤ d := by omega
    constructor <;> nlinarith [Nat.mul_comm d q]

/-- Half-way values go to an even number. -/
theorem divNearestEven_tie_below {n d : Nat} (hd : 0 < d)
    (h : 2 * n = (2 * divNearestEven n d + 1) * d) : divNearestEven n d % 2 = 0 := by
  have hdm := Nat.div_add_mod n d
  have hlt := Nat.mod_lt n hd
  unfold divNearestEven at h ⊢
  generalize n / d = q at *
  generalize n % d = r at *
  subst hdm
  split at h <;> rename_i hc
  · exfalso; nlinarith
  · have h2 : 2 * r = d := by nlinarith
    rw [if_neg hc]
    omega

theorem divNearestEven_tie_above {n d : Nat} (hd : 0 < d)
    (h : 2 * divNearestEven n d * d = 2 * n + d) : divNearestEven n d % 2 = 0 := by
  have hdm := Nat.div_add_mod n d
  have hlt := Nat.mod_lt n hd
  unfold divNearestEven at h ⊢
  generalize n / d = q at *
  generalize n % d = r at *
  subst hdm
  split at h <;> rename_i hc
  · have h2 : 2 * r = d := by nlinarith
    rw [if_pos hc]
    omega
  · exfalso; nlinarith

theorem divNearestEven_mono {n₁ d₁ n₂ d₂ : Nat} (h₁ : 0 < d₁) (h₂ : 0 < d₂)
    (h : n₁ * d₂ ≤ n₂ * d₁) : divNearestEven n₁ d₁ ≤ divNearestEven n₂ d₂ := by
  by_contra hlt
  have b₁ := (divNearestEven_bounds (n := n₁) h₁).2
  have b₂ := (divNearestEven_bounds (n := n₂) h₂).1
  have t₁ := divNearestEven_tie_above (n := n₁) h₁
  have t₂ := divNearestEven_tie_below (n := n₂) h₂
  generalize divNearestEven n₁ d₁ = k₁ at *
  generalize divNearestEven n₂ d₂ = k₂ at *
  have hk : k₂ + 1 ≤ k₁ := by omega
  -- both bounds meet at `k₂ + 1/2`
  have e1 : (2 * k₂ + 1) * d₁ ≤ 2 * n₁ := by nlinarith
  have e2 : 2 * n₁ * d₂ ≤ (2 * k₂ + 1) * d₂ * d₁ := by nlinarith
  have e3 : (2 * k₂ + 1) * d₁ * d₂ ≤ 2 * n₁ * d₂ := Nat.mul_le_mul_right _ e1
  have e4 : 2 * n₁ * d₂ = (2 * k₂ + 1) * d₁ * d₂ := le_antisymm (by nlinarith) e3
  have e5 : 2 * n₁ = (2 * k₂ + 1) * d₁ := Nat.eq_of_mul_eq_mul_right h₂ e4
  have hk' : k₁ = k₂ + 1 := by
    by_contra hne
    have : k₂ + 2 ≤ k₁ := by omega
    nlinarith
  have e6 : 2 * n₂ = (2 * k₂ + 1) * d₂ := by
    refine le_antisymm b₂ ?_
    have : (2 * k₂ + 1) * d₂ * d₁ ≤ 2 * n₂ * d₁ := by nlinarith
    exact Nat.le_of_mul_le_mul_right this h₁
  have p₁ := t₁ (by rw [hk', e5]; ring)
  have p₂ := t₂ e6
  omega

theorem divNearestEven_mul (k d : Nat) (hd : 0 < d) : divNearestEven (k * d) d = k := by
  have : ¬(d < 2 * (k * d % d) ∨ (2 * (k * d % d) = d ∧ k * d / d % 2 = 1)) := by
    rw [Nat.mul_mod_left]; omega
  unfold divNearestEven
  rw [if_neg this, Nat.mul_div_cancel _ hd]

/-! ### Rounding to a magnitude field -/

/-- The magnitude field before it is bounded by infinity. -/
def roundMagFree (f : Fmt) (n d : Nat) : Nat :=
  quantumLog f (n / d) * 2 ^ f.mbits + divNearestEven n (d * 2 ^ quantumLog f (n / d))

theorem roundMag_eq (f : Fmt) (n d : Nat) : roundMag f n d = min (roundMagFree f n d) f.infMag := rfl

theorem roundMag_le_inf (f : Fmt) (n d : Nat) : roundMag f n d ≤ f.infMag := Nat.min_le_right _ _

theorem lt_quantum (f : Fmt) (q : Nat) : q < 2 ^ (f.mbits + 1) * 2 ^ quantumLog f q := by
  rw [← pow_add]
  refine lt_of_lt_of_le (Nat.lt_log2_self (n := q)) (Nat.pow_le_pow_right (by omega) ?_)
  unfold quantumLog; omega

theorem quantum_le {f : Fmt} {q : Nat} (h : 0 < quantumLog f q) :
    2 ^ f.mbits * 2 ^ quantumLog f q ≤ q := by
  rw [← pow_add]
  have hq : q ≠ 0 := by rintro rfl; simp [quantumLog] at h
  refine le_trans (Nat.pow_le_pow_right (by omega) ?_) (Nat.log2_self_le hq)
  unfold quantumLog at h ⊢; omega

theorem quantumLog_mono {f : Fmt} {a b : Nat} (h : a ≤ b) : quantumLog f a ≤ quantumLog f b := by
  unfold quantumLog
  have : Nat.log2 a ≤ Nat.log2 b := by
    rw [Nat.log2_eq_log_two, Nat.log2_eq_log_two]; exact Nat.log_mono_right h
  omega

theorem roundMagFree_le {f : Fmt} {n d : Nat} (hd : 0 < d) :
    roundMagFree f n d ≤ (quantumLog f (n / d) + 2) * 2 ^ f.mbits := by
  have hq := lt_quantum f (n / d)
  set sh := quantumLog f (n / d) with hsh
  have hD : 0 < d * 2 ^ sh := Nat.mul_pos hd (Nat.two_pow_pos _)
  have hn : n ≤ (2 ^ (f.mbits + 1)) * (d * 2 ^ sh) := by
    have h1 : n < (n / d + 1) * d := by
      rw [Nat.add_mul, Nat.one_mul]; have := Nat.div_add_mod' n d; have := Nat.mod_lt n hd; omega
    have h2 : (n / d + 1) * d ≤ (2 ^ (f.mbits + 1) * 2 ^ sh) * d := Nat.mul_le_mul_right _ hq
    nlinarith
  have hk : divNearestEven n (d * 2 ^ sh) ≤ 2 ^ (f.mbits + 1) := by
    have := divNearestEven_mono (n₁ := n) (d₁ := d * 2 ^ sh) (n₂ := 2 ^ (f.mbits + 1) * (d * 2 ^ sh))
      (d₂ := d * 2 ^ sh) hD hD (Nat.mul_le_mul_right _ hn)
    rwa [divNearestEven_mul _ _ hD] at this
  unfold roundMagFree
  rw [← hsh]
  calc sh * 2 ^ f.mbits + divNearestEven n (d * 2 ^ sh)
      ≤ sh * 2 ^ f.mbits + 2 ^ (f.mbits + 1) := Nat.add_le_add_left hk _
    _ = (sh + 2) * 2 ^ f.mbits := by rw [pow_succ]; ring

theorem le_roundMagFree {f : Fmt} {n d : Nat} (hd : 0 < d) (h : 0 < quantumLog f (n / d)) :
    (quantumLog f (n / d) + 1) * 2 ^ f.mbits ≤ roundMagFree f n d := by
  have hq := quantum_le h
  set sh := quantumLog f (n / d) with hsh
  have hD : 0 < d * 2 ^ sh := Nat.mul_pos hd (Nat.two_pow_pos _)
  have hn : 2 ^ f.mbits * (d * 2 ^ sh) ≤ n := by
    have h1 : (2 ^ f.mbits * 2 ^ sh) * d ≤ n / d * d := Nat.mul_le_mul_right _ hq
    have := Nat.div_mul_le_self n d
    nlinarith
  have hk : 2 ^ f.mbits ≤ divNearestEven n (d * 2 ^ sh) := by
    have := divNearestEven_mono (n₁ := 2 ^ f.mbits * (d * 2 ^ sh)) (d₁ := d * 2 ^ sh) (n₂ := n)
      (d₂ := d * 2 ^ sh) hD hD (Nat.mul_le_mul_right _ hn)
    rwa [divNearestEven_mul _ _ hD] at this
  unfold roundMagFree
  rw [← hsh]
  calc (sh + 1) * 2 ^ f.mbits = sh * 2 ^ f.mbits + 2 ^ f.mbits := by ring
    _ ≤ _ := Nat.add_le_add_left hk _

/-- Rounding is monotone in the exact value. -/
theorem roundMagFree_mono {f : Fmt} {n₁ d₁ n₂ d₂ : Nat} (h₁ : 0 < d₁) (h₂ : 0 < d₂)
    (h : n₁ * d₂ ≤ n₂ * d₁) : roundMagFree f n₁ d₁ ≤ roundMagFree f n₂ d₂ := by
  have hq : n₁ / d₁ ≤ n₂ / d₂ := by
    rw [Nat.le_div_iff_mul_le h₂]
    have h3 : n₁ / d₁ * d₂ * d₁ ≤ n₂ * d₁ := by
      calc n₁ / d₁ * d₂ * d₁ = n₁ / d₁ * d₁ * d₂ := by ring
        _ ≤ n₁ * d₂ := Nat.mul_le_mul_right _ (Nat.div_mul_le_self _ _)
        _ ≤ _ := h
    exact Nat.le_of_mul_le_mul_right h3 h₁
  rcases (quantumLog_mono (f := f) hq).lt_or_eq with hlt | heq
  · calc roundMagFree f n₁ d₁ ≤ (quantumLog f (n₁ / d₁) + 2) * 2 ^ f.mbits := roundMagFree_le h₁
      _ ≤ (quantumLog f (n₂ / d₂) + 1) * 2 ^ f.mbits := Nat.mul_le_mul_right _ (by omega)
      _ ≤ _ := le_roundMagFree h₂ (by omega)
  · unfold roundMagFree
    rw [heq]
    refine Nat.add_le_add_left (divNearestEven_mono (Nat.mul_pos h₁ (Nat.two_pow_pos _))
      (Nat.mul_pos h₂ (Nat.two_pow_pos _)) ?_) _
    calc n₁ * (d₂ * 2 ^ quantumLog f (n₂ / d₂)) = n₁ * d₂ * 2 ^ quantumLog f (n₂ / d₂) := by ring
      _ ≤ n₂ * d₁ * 2 ^ quantumLog f (n₂ / d₂) := Nat.mul_le_mul_right _ h
      _ = _ := by ring

/-- A representable value rounds to itself. -/
theorem roundMagFree_magUnits (f : Fmt) (m d : Nat) (hd : 0 < d) :
    roundMagFree f (magUnits f m * d) d = m := by
  have hp : 0 < 2 ^ f.mbits := Nat.two_pow_pos _
  have hdiv : magUnits f m * d / d = magUnits f m := Nat.mul_div_cancel _ hd
  obtain ⟨e, r, hr, rfl⟩ : ∃ e r, r < 2 ^ f.mbits ∧ m = e * 2 ^ f.mbits + r :=
    ⟨m / 2 ^ f.mbits, m % 2 ^ f.mbits, Nat.mod_lt _ hp, (Nat.div_add_mod' _ _).symm⟩
  unfold roundMagFree
  rw [hdiv]
  cases e with
  | zero =>
    have h0 : 0 * 2 ^ f.mbits + r = r := by omega
    have hl : quantumLog f r = 0 := by
      unfold quantumLog
      have : Nat.log2 r ≤ f.mbits := by
        rcases Nat.eq_zero_or_pos r with rfl | hpos
        · simp
        · have := (Nat.log2_lt (by omega)).2 hr
          omega
      omega
    rw [h0, magUnits_small hr, hl]
    simp [divNearestEven_mul r d hd]
  | succ k =>
    have hl : quantumLog f ((r + 2 ^ f.mbits) * 2 ^ k) = k := by
      unfold quantumLog
      have hlog : Nat.log2 ((r + 2 ^ f.mbits) * 2 ^ k) = f.mbits + k := by
        rw [Nat.log2_eq_iff (by positivity)]
        refine ⟨?_, ?_⟩
        · rw [pow_add]; exact Nat.mul_le_mul_right _ (Nat.le_add_left _ _)
        · calc (r + 2 ^ f.mbits) * 2 ^ k < (2 ^ f.mbits + 2 ^ f.mbits) * 2 ^ k :=
                Nat.mul_lt_mul_of_pos_right (by omega) (Nat.two_pow_pos _)
            _ = 2 ^ (f.mbits + k + 1) := by rw [pow_succ, pow_add]; ring
      omega
    rw [magUnits_succ f k r hr, hl]
    have : (r + 2 ^ f.mbits) * 2 ^ k * d = (r + 2 ^ f.mbits) * (d * 2 ^ k) := by ring
    rw [this, divNearestEven_mul _ _ (Nat.mul_pos hd (Nat.two_pow_pos _))]
    ring

theorem roundMag_mono {f : Fmt} {n₁ d₁ n₂ d₂ : Nat} (h₁ : 0 < d₁) (h₂ : 0 < d₂)
    (h : n₁ * d₂ ≤ n₂ * d₁) : roundMag f n₁ d₁ ≤ roundMag f n₂ d₂ :=
  min_le_min_right _ (roundMagFree_mono h₁ h₂ h)

theorem roundMag_magUnits {f : Fmt} {m d : Nat} (hd : 0 < d) (hm : m ≤ f.infMag) :
    roundMag f (magUnits f m * d) d = m := by
  rw [roundMag_eq, roundMagFree_magUnits f m d hd, Nat.min_eq_left hm]

/-- Rounding stays on its side of every representable value, from below. -/
theorem roundMag_le_of_le {f : Fmt} {n d m : Nat} (hd : 0 < d) (h : n ≤ magUnits f m * d) :
    roundMag f n d ≤ m := by
  have := roundMagFree_mono (f := f) hd hd (Nat.mul_le_mul_right d h)
  rw [roundMagFree_magUnits f m d hd] at this
  exact (Nat.min_le_left _ _).trans this

/-- Rounding stays on its side of every representable value, from above. -/
theorem le_roundMag_of_le {f : Fmt} {n d m : Nat} (hd : 0 < d) (hm : m ≤ f.infMag)
    (h : magUnits f m * d ≤ n) : m ≤ roundMag f n d := by
  have := roundMagFree_mono (f := f) hd hd (Nat.mul_le_mul_right d h)
  rw [roundMagFree_magUnits f m d hd] at this
  exact le_min this hm

/-! ### Signed values -/

namespace Fp

/-- The value is no NaN and its magnitude field fits the format. -/
abbrev Num (f : Fmt) (x : Fp) : Prop := x.mag ≤ f.infMag

theorem isNaN_eq_false {f : Fmt} {x : Fp} (h : x.Num f) : x.isNaN f = false := by
  simp only [isNaN, decide_eq_false_iff_not]; omega

theorem le_iff {f : Fmt} {x y : Fp} (hx : x.Num f) (hy : y.Num f) :
    le f x y = true ↔ x.units f ≤ y.units f := by
  simp [le, isNaN_eq_false hx, isNaN_eq_false hy]

theorem lt_iff {f : Fmt} {x y : Fp} (hx : x.Num f) (hy : y.Num f) :
    lt f x y = true ↔ x.units f < y.units f := by
  simp [lt, isNaN_eq_false hx, isNaN_eq_false hy]

theorem num_of_le {f : Fmt} {x y : Fp} (h : le f x y = true) : x.Num f ∧ y.Num f := by
  simp only [le, Bool.and_eq_true, isNaN, Bool.not_eq_true', decide_eq_false_iff_not] at h
  exact ⟨by have := h.1.1; unfold Num; omega, by have := h.1.2; unfold Num; omega⟩

theorem num_of_lt {f : Fmt} {x y : Fp} (h : lt f x y = true) : x.Num f ∧ y.Num f := by
  simp only [lt, Bool.and_eq_true, isNaN, Bool.not_eq_true', decide_eq_false_iff_not] at h
  exact ⟨by have := h.1.1; unfold Num; omega, by have := h.1.2; unfold Num; omega⟩

theorem ofUnits_num (f : Fmt) (z : Int) (d : Nat) (b : Bool) : (ofUnits f z d b).Num f :=
  roundMag_le_inf f _ _

theorem units_ofUnits_of_nonneg {f : Fmt} {z : Int} {d : Nat} {b : Bool} (hz : 0 < z) :
    (ofUnits f z d b).units f = (magUnits f (roundMag f z.natAbs d) : Int) := by
  have h1 : z ≠ 0 := by omega
  have h2 : ¬ z < 0 := by omega
  simp [ofUnits, units, h1, h2]

theorem roundMag_zero (f : Fmt) (d : Nat) (hd : 0 < d) : roundMag f 0 d = 0 := by
  have := roundMag_magUnits (f := f) (m := 0) hd (Nat.zero_le _)
  rwa [magUnits_zero, Nat.zero_mul] at this

theorem units_ofUnits_zero {f : Fmt} {d : Nat} {b : Bool} (hd : 0 < d) :
    (ofUnits f 0 d b).units f = 0 := by
  simp [ofUnits, units, roundMag_zero f d hd, magUnits_zero]

theorem units_ofUnits_of_neg {f : Fmt} {z : Int} {d : Nat} {b : Bool} (hz : z < 0) :
    (ofUnits f z d b).units f = -(magUnits f (roundMag f z.natAbs d) : Int) := by
  have h1 : z ≠ 0 := by omega
  simp [ofUnits, units, h1, hz]

/-- Rounding keeps an upper bound that is a value of the format. -/
theorem units_ofUnits_le {f : Fmt} {z : Int} {d : Nat} {b : Bool} {y : Fp} (hd : 0 < d)
    (hy : y.Num f) (h : z ≤ y.units f * d) : (ofUnits f z d b).units f ≤ y.units f := by
  rcases lt_trichotomy z 0 with hz | rfl | hz
  · rw [units_ofUnits_of_neg hz]
    by_cases hyn : y.neg
    · simp only [units, hyn, if_true] at h ⊢
      have hm : y.mag ≤ roundMag f z.natAbs d := by
        refine le_roundMag_of_le hd hy ?_
        zify
        have : (z.natAbs : Int) = -z := by omega
        rw [Int.natCast_natAbs] at this
        rw [this]; linarith
      have := (magUnits_le_iff (f := f)).2 hm
      omega
    · simp only [units, hyn, Bool.false_eq_true, if_false]
      omega
  · rw [units_ofUnits_zero hd]
    have hdpos : (0 : Int) < d := by exact_mod_cast hd
    by_contra hneg
    have : y.units f * d < 0 := mul_neg_of_neg_of_pos (by omega) hdpos
    omega
  · rw [units_ofUnits_of_nonneg hz]
    by_cases hyn : y.neg
    · exfalso
      simp only [units, hyn, if_true] at h
      have : (0 : Int) ≤ (magUnits f y.mag : Int) * d := by positivity
      linarith
    · simp only [units, hyn, Bool.false_eq_true, if_false] at h ⊢
      have hm : roundMag f z.natAbs d ≤ y.mag := by
        refine roundMag_le_of_le hd ?_
        zify
        rw [abs_of_pos hz]; exact h
      exact_mod_cast (magUnits_le_iff (f := f)).2 hm

/-- Rounding keeps a lower bound that is a value of the format. -/
theorem le_units_ofUnits {f : Fmt} {z : Int} {d : Nat} {b : Bool} {y : Fp} (hd : 0 < d)
    (hy : y.Num f) (h : y.units f * d ≤ z) : y.units f ≤ (ofUnits f z d b).units f := by
  rcases lt_trichotomy z 0 with hz | rfl | hz
  · rw [units_ofUnits_of_neg hz]
    by_cases hyn : y.neg
    · simp only [units, hyn, if_true] at h ⊢
      have hm : roundMag f z.natAbs d ≤ y.mag := by
        refine roundMag_le_of_le hd ?_
        zify
        rw [abs_of_neg hz]; linarith
      have := (magUnits_le_iff (f := f)).2 hm
      omega
    · exfalso
      simp only [units, hyn, Bool.false_eq_true, if_false] at h
      have : (0 : Int) ≤ (magUnits f y.mag : Int) * d := by positivity
      linarith
  · rw [units_ofUnits_zero hd]
    have hdpos : (0 : Int) < d := by exact_mod_cast hd
    by_contra hneg
    have : 0 < y.units f * d := mul_pos (by omega) hdpos
    omega
  · rw [units_ofUnits_of_nonneg hz]
    by_cases hyn : y.neg
    · simp only [units, hyn, if_true]
      omega
    · simp only [units, hyn, Bool.false_eq_true, if_false] at h ⊢
      have hm : y.mag ≤ roundMag f z.natAbs d := by
        refine le_roundMag_of_le hd hy ?_
        zify
        rw [abs_of_pos hz]; exact h
      exact_mod_cast (magUnits_le_iff (f := f)).2 hm

/-- The sum of two finite values is their exact sum, rounded. -/
theorem add_of_finite {f : Fmt} {x y : Fp} (hx : x.mag < f.infMag) (hy : y.mag < f.infMag) :
    add f x y = ofUnits f (x.units f + y.units f) 1 (x.neg && y.neg) := by
  have hx' : x.Num f := le_of_lt hx
  have hy' : y.Num f := le_of_lt hy
  have ix : x.isInf f = false := by simp [isInf]; omega
  have iy : y.isInf f = false := by simp [isInf]; omega
  simp [add, isNaN_eq_false hx', isNaN_eq_false hy', ix, iy]

/-- The product of two finite values is their exact product, rounded. -/
theorem mul_of_finite {f : Fmt} {x y : Fp} (hx : x.mag < f.infMag) (hy : y.mag < f.infMag) :
    mul f x y = ⟨x.neg != y.neg, roundMag f (magUnits f x.mag * magUnits f y.mag) (2 ^ f.unitLog)⟩ := by
  have hx' : x.Num f := le_of_lt hx
  have hy' : y.Num f := le_of_lt hy
  have ix : x.isInf f = false := by simp [isInf]; omega
  have iy : y.isInf f = false := by simp [isInf]; omega
  simp [mul, isNaN_eq_false hx', isNaN_eq_false hy', ix, iy]

/-- The quotient of two finite values, the second not zero, is their exact quotient, rounded. -/
theorem div_of_finite {f : Fmt} {x y : Fp} (hx : x.mag < f.infMag) (hy : y.mag < f.infMag)
    (h0 : y.mag ≠ 0) :
    div f x y =
      ⟨x.neg != y.neg, roundMag f (magUnits f x.mag * 2 ^ f.unitLog) (magUnits f y.mag)⟩ := by
  have hx' : x.Num f := le_of_lt hx
  have hy' : y.Num f := le_of_lt hy
  have ix : x.isInf f = false := by simp [isInf]; omega
  have iy : y.isInf f = false := by simp [isInf]; omega
  simp [div, isNaN_eq_false hx', isNaN_eq_false hy', ix, iy, isZero, h0]

/-- A sum of finite values keeps an upper bound that is a value of the format. -/
theorem add_units_le {f : Fmt} {x y b : Fp} (hx : x.mag < f.infMag) (hy : y.mag < f.infMag)
    (hb : b.Num f) (h : x.units f + y.units f ≤ b.units f) : (add f x y).units f ≤ b.units f := by
  rw [add_of_finite hx hy]
  exact units_ofUnits_le Nat.one_pos hb (by simpa using h)

/-- A sum of finite values keeps a lower bound that is a value of the format. -/
theorem le_add_units {f : Fmt} {x y b : Fp} (hx : x.mag < f.infMag) (hy : y.mag < f.infMag)
    (hb : b.Num f) (h : b.units f ≤ x.units f + y.units f) : b.units f ≤ (add f x y).units f := by
  rw [add_of_finite hx hy]
  exact le_units_ofUnits Nat.one_pos hb (by simpa using h)

theorem add_num_of_finite {f : Fmt} {x y : Fp} (hx : x.mag < f.infMag) (hy : y.mag < f.infMag) :
    (add f x y).Num f := by
  rw [add_of_finite hx hy]; exact ofUnits_num _ _ _ _

@[simp] theorem units_negate (f : Fmt) (x : Fp) : x.negate.units f = -x.units f := by
  cases x with
  | mk n m => cases n <;> simp [negate, units]

@[simp] theorem negate_mag (x : Fp) : x.negate.mag = x.mag := rfl

/-- A value strictly between two finite ones is finite. -/
theorem finite_of_lt {f : Fmt} {x y z : Fp} (hx : x.Num f) (hy : y.Num f) (hz : z.Num f)
    (h₁ : x.units f < y.units f) (h₂ : y.units f < z.units f) : y.mag < f.infMag := by
  have hyn : y.mag ≤ f.infMag := hy
  rcases Nat.lt_or_ge y.mag f.infMag with h | h
  · exact h
  · exfalso
    have e : y.mag = f.infMag := le_antisymm hyn h
    have hxm : magUnits f x.mag ≤ magUnits f f.infMag := magUnits_le_iff.2 hx
    have hzm : magUnits f z.mag ≤ magUnits f f.infMag := magUnits_le_iff.2 hz
    unfold units at h₁ h₂
    rw [e] at h₁ h₂
    split_ifs at h₁ h₂ <;> omega

end Fp

/-! ### Packing -/

theorem infMag32 : fmt32.infMag = 2139095040 := by decide
theorem infMag64 : fmt64.infMag = 9218868437227405312 := by decide

/-- A packed binary32 unpacks to itself. -/
theorem unpack32_pack32 {x : Fp} (h : x.mag < 2 ^ 31) : unpack32 (pack32 x) = x := by
  obtain ⟨n, m⟩ := x
  simp only at h
  cases n
  · have e : (BitVec.ofNat 32 m).toNat = m := by
      rw [BitVec.toNat_ofNat]; omega
    simp only [pack32, unpack32, Bool.false_eq_true, if_false, Nat.add_zero, BitVec.msb_eq_decide, e,
      Fp.mk.injEq, decide_eq_false_iff_not]
    omega
  · have e : (BitVec.ofNat 32 (m + 2 ^ 31)).toNat = m + 2 ^ 31 := by
      rw [BitVec.toNat_ofNat]; omega
    simp only [pack32, unpack32, if_true, BitVec.msb_eq_decide, e, Fp.mk.injEq, decide_eq_true_eq]
    omega

/-- A packed binary64 unpacks to itself. -/
theorem unpack64_pack64 {x : Fp} (h : x.mag < 2 ^ 63) : unpack64 (pack64 x) = x := by
  obtain ⟨n, m⟩ := x
  simp only at h
  cases n
  · have e : (BitVec.ofNat 64 m).toNat = m := by
      rw [BitVec.toNat_ofNat]; omega
    simp only [pack64, unpack64, Bool.false_eq_true, if_false, Nat.add_zero, BitVec.msb_eq_decide, e,
      Fp.mk.injEq, decide_eq_false_iff_not]
    omega
  · have e : (BitVec.ofNat 64 (m + 2 ^ 63)).toNat = m + 2 ^ 63 := by
      rw [BitVec.toNat_ofNat]; omega
    simp only [pack64, unpack64, if_true, BitVec.msb_eq_decide, e, Fp.mk.injEq, decide_eq_true_eq]
    omega

theorem unpack32_pack32_of_num {x : Fp} (h : x.Num fmt32) : unpack32 (pack32 x) = x :=
  unpack32_pack32 (by have := infMag32; have h' : x.mag ≤ fmt32.infMag := h; omega)

theorem unpack64_pack64_of_num {x : Fp} (h : x.Num fmt64) : unpack64 (pack64 x) = x :=
  unpack64_pack64 (by have := infMag64; have h' : x.mag ≤ fmt64.infMag := h; omega)

/-- The sign bit flips and the magnitude field stays. -/
theorem unpack32_negF32 (x : F32) : unpack32 (negF32 x) = (unpack32 x).negate := by
  have hlt := x.isLt
  unfold negF32 unpack32 Fp.negate
  simp only [Fp.mk.injEq]
  constructor
  · rw [BitVec.msb_xor, show (0x80000000#32).msb = true by decide, Bool.xor_true]
  · rw [BitVec.toNat_xor]
    have : (0x80000000#32).toNat = 2 ^ 31 := by decide
    rw [this]
    apply Nat.eq_of_testBit_eq
    intro i
    simp only [Nat.testBit_mod_two_pow, Nat.testBit_xor, Nat.testBit_two_pow]
    by_cases hi : i < 31
    · have : ¬ (31 = i) := by omega
      simp [hi, this]
    · simp [hi]

/-! ### Order on binary32: what the clamps and the invariants use -/

theorem ltF32_of_not_leF32 {x y : F32} (hx : isNaN32 x = false) (hy : isNaN32 y = false)
    (h : leF32 x y = false) : ltF32 y x = true := by
  simp only [isNaN32] at hx hy
  simp only [leF32, Fp.le, hx, hy, Bool.not_false, Bool.and_self, Bool.true_and,
    decide_eq_false_iff_not, not_le] at h
  simp [ltF32, Fp.lt, hx, hy, h]

theorem leF32_of_not_ltF32 {x y : F32} (hx : isNaN32 x = false) (hy : isNaN32 y = false)
    (h : ltF32 x y = false) : leF32 y x = true := by
  simp only [isNaN32] at hx hy
  simp only [ltF32, Fp.lt, hx, hy, Bool.not_false, Bool.and_self, Bool.true_and,
    decide_eq_false_iff_not, not_lt] at h
  simp [leF32, Fp.le, hx, hy, h]

theorem leF32_trans {x y z : F32} (h₁ : leF32 x y = true) (h₂ : leF32 y z = true) :
    leF32 x z = true := by
  unfold leF32 at *
  have n₁ := Fp.num_of_le h₁
  have n₂ := Fp.num_of_le h₂
  rw [Fp.le_iff n₁.1 n₁.2] at h₁
  rw [Fp.le_iff n₂.1 n₂.2] at h₂
  rw [Fp.le_iff n₁.1 n₂.2]
  omega

end Sys2Proof.Machine
end

