-- ==== Sys2Proof/Laws/State.lean ====
section
/-! SUPPORT. What each update of the state leaves: one lemma for each field that the update does not write,
and the field it writes where that is one expression. -/

namespace Sys2Proof.Machine

/-! ### mapBank -/

@[simp] theorem State.mapBank_cfg (s : State) (f : Bank → Bank) : (s.mapBank f).cfg = s.cfg := rfl
@[simp] theorem State.mapBank_units (s : State) (f : Bank → Bank) : (s.mapBank f).units = s.units := rfl
@[simp] theorem State.mapBank_eng (s : State) (f : Bank → Bank) : (s.mapBank f).eng = s.eng := rfl
@[simp] theorem State.mapBank_sticky (s : State) (f : Bank → Bank) : (s.mapBank f).sticky = s.sticky := rfl
@[simp] theorem State.mapBank_expiryPending (s : State) (f : Bank → Bank) : (s.mapBank f).expiryPending = s.expiryPending := rfl
@[simp] theorem State.mapBank_env (s : State) (f : Bank → Bank) : (s.mapBank f).env = s.env := rfl

/-! ### putRes -/

@[simp] theorem State.putRes_cfg (s : State) (vs : List U32) : (s.putRes vs).cfg = s.cfg := rfl
@[simp] theorem State.putRes_units (s : State) (vs : List U32) : (s.putRes vs).units = s.units := rfl
@[simp] theorem State.putRes_eng (s : State) (vs : List U32) : (s.putRes vs).eng = s.eng := rfl
@[simp] theorem State.putRes_sticky (s : State) (vs : List U32) : (s.putRes vs).sticky = s.sticky := rfl
@[simp] theorem State.putRes_expiryPending (s : State) (vs : List U32) : (s.putRes vs).expiryPending = s.expiryPending := rfl
@[simp] theorem State.putRes_env (s : State) (vs : List U32) : (s.putRes vs).env = s.env := rfl

/-! ### mapUnits -/

@[simp] theorem State.mapUnits_cfg (s : State) (f : Units → Units) : (s.mapUnits f).cfg = s.cfg := rfl
@[simp] theorem State.mapUnits_fg (s : State) (f : Units → Units) : (s.mapUnits f).fg = s.fg := rfl
@[simp] theorem State.mapUnits_isr (s : State) (f : Units → Units) : (s.mapUnits f).isr = s.isr := rfl
@[simp] theorem State.mapUnits_eng (s : State) (f : Units → Units) : (s.mapUnits f).eng = s.eng := rfl
@[simp] theorem State.mapUnits_sticky (s : State) (f : Units → Units) : (s.mapUnits f).sticky = s.sticky := rfl
@[simp] theorem State.mapUnits_expiryPending (s : State) (f : Units → Units) : (s.mapUnits f).expiryPending = s.expiryPending := rfl
@[simp] theorem State.mapUnits_env (s : State) (f : Units → Units) : (s.mapUnits f).env = s.env := rfl

/-! ### reject -/

@[simp] theorem State.reject_cfg (s : State) (c : CmdError) : (s.reject c).cfg = s.cfg := rfl
@[simp] theorem State.reject_fg (s : State) (c : CmdError) : (s.reject c).fg = s.fg := rfl
@[simp] theorem State.reject_isr (s : State) (c : CmdError) : (s.reject c).isr = s.isr := rfl
@[simp] theorem State.reject_units (s : State) (c : CmdError) : (s.reject c).units = s.units := rfl
@[simp] theorem State.reject_eng (s : State) (c : CmdError) : (s.reject c).eng = s.eng := rfl
@[simp] theorem State.reject_expiryPending (s : State) (c : CmdError) : (s.reject c).expiryPending = s.expiryPending := rfl
@[simp] theorem State.reject_env (s : State) (c : CmdError) : (s.reject c).env = s.env := rfl

/-! ### mapEnv -/

@[simp] theorem State.mapEnv_cfg (s : State) (f : Env → Env) : (s.mapEnv f).cfg = s.cfg := rfl
@[simp] theorem State.mapEnv_fg (s : State) (f : Env → Env) : (s.mapEnv f).fg = s.fg := rfl
@[simp] theorem State.mapEnv_isr (s : State) (f : Env → Env) : (s.mapEnv f).isr = s.isr := rfl
@[simp] theorem State.mapEnv_units (s : State) (f : Env → Env) : (s.mapEnv f).units = s.units := rfl
@[simp] theorem State.mapEnv_eng (s : State) (f : Env → Env) : (s.mapEnv f).eng = s.eng := rfl
@[simp] theorem State.mapEnv_sticky (s : State) (f : Env → Env) : (s.mapEnv f).sticky = s.sticky := rfl
@[simp] theorem State.mapEnv_expiryPending (s : State) (f : Env → Env) : (s.mapEnv f).expiryPending = s.expiryPending := rfl

/-! ### writeNeutral -/

@[simp] theorem State.writeNeutral_cfg (s : State) : (s.writeNeutral).cfg = s.cfg := rfl
@[simp] theorem State.writeNeutral_fg (s : State) : (s.writeNeutral).fg = s.fg := rfl
@[simp] theorem State.writeNeutral_isr (s : State) : (s.writeNeutral).isr = s.isr := rfl
@[simp] theorem State.writeNeutral_units (s : State) : (s.writeNeutral).units = s.units := rfl
@[simp] theorem State.writeNeutral_eng (s : State) : (s.writeNeutral).eng = s.eng := rfl
@[simp] theorem State.writeNeutral_sticky (s : State) : (s.writeNeutral).sticky = s.sticky := rfl
@[simp] theorem State.writeNeutral_expiryPending (s : State) : (s.writeNeutral).expiryPending = s.expiryPending := rfl

/-! ### engineStop -/

@[simp] theorem State.engineStop_cfg (s : State) : (s.engineStop).cfg = s.cfg := rfl
@[simp] theorem State.engineStop_fg (s : State) : (s.engineStop).fg = s.fg := rfl
@[simp] theorem State.engineStop_isr (s : State) : (s.engineStop).isr = s.isr := rfl
@[simp] theorem State.engineStop_units (s : State) : (s.engineStop).units = s.units := rfl
@[simp] theorem State.engineStop_sticky (s : State) : (s.engineStop).sticky = s.sticky := rfl

/-! ### rearmFail -/

@[simp] theorem State.rearmFail_cfg (s : State) : (s.rearmFail).cfg = s.cfg := rfl
@[simp] theorem State.rearmFail_fg (s : State) : (s.rearmFail).fg = s.fg := rfl
@[simp] theorem State.rearmFail_isr (s : State) : (s.rearmFail).isr = s.isr := rfl
@[simp] theorem State.rearmFail_units (s : State) : (s.rearmFail).units = s.units := rfl
@[simp] theorem State.rearmFail_expiryPending (s : State) : (s.rearmFail).expiryPending = s.expiryPending := rfl

/-! ### timerExpired -/

@[simp] theorem State.timerExpired_cfg (s : State) : (s.timerExpired).cfg = s.cfg := rfl
@[simp] theorem State.timerExpired_fg (s : State) : (s.timerExpired).fg = s.fg := rfl
@[simp] theorem State.timerExpired_isr (s : State) : (s.timerExpired).isr = s.isr := rfl
@[simp] theorem State.timerExpired_units (s : State) : (s.timerExpired).units = s.units := rfl
@[simp] theorem State.timerExpired_eng (s : State) : (s.timerExpired).eng = s.eng := rfl
@[simp] theorem State.timerExpired_sticky (s : State) : (s.timerExpired).sticky = s.sticky := rfl
@[simp] theorem State.timerExpired_expiryPending (s : State) : (s.timerExpired).expiryPending = s.expiryPending := rfl

/-! ### latchExpiry -/

@[simp] theorem State.latchExpiry_cfg (s : State) : (s.latchExpiry).cfg = s.cfg := rfl
@[simp] theorem State.latchExpiry_fg (s : State) : (s.latchExpiry).fg = s.fg := rfl
@[simp] theorem State.latchExpiry_isr (s : State) : (s.latchExpiry).isr = s.isr := rfl
@[simp] theorem State.latchExpiry_units (s : State) : (s.latchExpiry).units = s.units := rfl
@[simp] theorem State.latchExpiry_eng (s : State) : (s.latchExpiry).eng = s.eng := rfl
@[simp] theorem State.latchExpiry_sticky (s : State) : (s.latchExpiry).sticky = s.sticky := rfl

/-! ### enterHandler -/

@[simp] theorem State.enterHandler_cfg (s : State) : (s.enterHandler).cfg = s.cfg := rfl
@[simp] theorem State.enterHandler_fg (s : State) : (s.enterHandler).fg = s.fg := rfl
@[simp] theorem State.enterHandler_isr (s : State) : (s.enterHandler).isr = s.isr := rfl
@[simp] theorem State.enterHandler_units (s : State) : (s.enterHandler).units = s.units := rfl
@[simp] theorem State.enterHandler_sticky (s : State) : (s.enterHandler).sticky = s.sticky := rfl
@[simp] theorem State.enterHandler_expiryPending (s : State) : (s.enterHandler).expiryPending = s.expiryPending := rfl
@[simp] theorem State.enterHandler_env (s : State) : (s.enterHandler).env = s.env := rfl

/-! ### clearPending -/

@[simp] theorem State.clearPending_cfg (s : State) : (s.clearPending).cfg = s.cfg := rfl
@[simp] theorem State.clearPending_fg (s : State) : (s.clearPending).fg = s.fg := rfl
@[simp] theorem State.clearPending_isr (s : State) : (s.clearPending).isr = s.isr := rfl
@[simp] theorem State.clearPending_units (s : State) : (s.clearPending).units = s.units := rfl
@[simp] theorem State.clearPending_eng (s : State) : (s.clearPending).eng = s.eng := rfl
@[simp] theorem State.clearPending_sticky (s : State) : (s.clearPending).sticky = s.sticky := rfl
@[simp] theorem State.clearPending_env (s : State) : (s.clearPending).env = s.env := rfl

/-! ### writeStatus -/

@[simp] theorem State.writeStatus_cfg (s : State) (w : U32) : (s.writeStatus w).cfg = s.cfg := rfl
@[simp] theorem State.writeStatus_fg (s : State) (w : U32) : (s.writeStatus w).fg = s.fg := rfl
@[simp] theorem State.writeStatus_isr (s : State) (w : U32) : (s.writeStatus w).isr = s.isr := rfl
@[simp] theorem State.writeStatus_units (s : State) (w : U32) : (s.writeStatus w).units = s.units := rfl
@[simp] theorem State.writeStatus_eng (s : State) (w : U32) : (s.writeStatus w).eng = s.eng := rfl
@[simp] theorem State.writeStatus_expiryPending (s : State) (w : U32) : (s.writeStatus w).expiryPending = s.expiryPending := rfl
@[simp] theorem State.writeStatus_env (s : State) (w : U32) : (s.writeStatus w).env = s.env := rfl

/-! ### putPacc -/

@[simp] theorem State.putPacc_cfg (s : State) (u : U8) (a : PaccState) : (s.putPacc u a).cfg = s.cfg := rfl
@[simp] theorem State.putPacc_fg (s : State) (u : U8) (a : PaccState) : (s.putPacc u a).fg = s.fg := rfl
@[simp] theorem State.putPacc_isr (s : State) (u : U8) (a : PaccState) : (s.putPacc u a).isr = s.isr := rfl
@[simp] theorem State.putPacc_eng (s : State) (u : U8) (a : PaccState) : (s.putPacc u a).eng = s.eng := rfl
@[simp] theorem State.putPacc_sticky (s : State) (u : U8) (a : PaccState) : (s.putPacc u a).sticky = s.sticky := rfl
@[simp] theorem State.putPacc_expiryPending (s : State) (u : U8) (a : PaccState) : (s.putPacc u a).expiryPending = s.expiryPending := rfl
@[simp] theorem State.putPacc_env (s : State) (u : U8) (a : PaccState) : (s.putPacc u a).env = s.env := rfl

/-! ### putOsc -/

@[simp] theorem State.putOsc_cfg (s : State) (u : U8) (a : OscState) : (s.putOsc u a).cfg = s.cfg := rfl
@[simp] theorem State.putOsc_fg (s : State) (u : U8) (a : OscState) : (s.putOsc u a).fg = s.fg := rfl
@[simp] theorem State.putOsc_isr (s : State) (u : U8) (a : OscState) : (s.putOsc u a).isr = s.isr := rfl
@[simp] theorem State.putOsc_eng (s : State) (u : U8) (a : OscState) : (s.putOsc u a).eng = s.eng := rfl
@[simp] theorem State.putOsc_sticky (s : State) (u : U8) (a : OscState) : (s.putOsc u a).sticky = s.sticky := rfl
@[simp] theorem State.putOsc_expiryPending (s : State) (u : U8) (a : OscState) : (s.putOsc u a).expiryPending = s.expiryPending := rfl
@[simp] theorem State.putOsc_env (s : State) (u : U8) (a : OscState) : (s.putOsc u a).env = s.env := rfl

/-! ### putOnepole -/

@[simp] theorem State.putOnepole_cfg (s : State) (u : U8) (a : OnePoleState) : (s.putOnepole u a).cfg = s.cfg := rfl
@[simp] theorem State.putOnepole_fg (s : State) (u : U8) (a : OnePoleState) : (s.putOnepole u a).fg = s.fg := rfl
@[simp] theorem State.putOnepole_isr (s : State) (u : U8) (a : OnePoleState) : (s.putOnepole u a).isr = s.isr := rfl
@[simp] theorem State.putOnepole_eng (s : State) (u : U8) (a : OnePoleState) : (s.putOnepole u a).eng = s.eng := rfl
@[simp] theorem State.putOnepole_sticky (s : State) (u : U8) (a : OnePoleState) : (s.putOnepole u a).sticky = s.sticky := rfl
@[simp] theorem State.putOnepole_expiryPending (s : State) (u : U8) (a : OnePoleState) : (s.putOnepole u a).expiryPending = s.expiryPending := rfl
@[simp] theorem State.putOnepole_env (s : State) (u : U8) (a : OnePoleState) : (s.putOnepole u a).env = s.env := rfl

/-! ### putSvf -/

@[simp] theorem State.putSvf_cfg (s : State) (u : U8) (a : SvfState) : (s.putSvf u a).cfg = s.cfg := rfl
@[simp] theorem State.putSvf_fg (s : State) (u : U8) (a : SvfState) : (s.putSvf u a).fg = s.fg := rfl
@[simp] theorem State.putSvf_isr (s : State) (u : U8) (a : SvfState) : (s.putSvf u a).isr = s.isr := rfl
@[simp] theorem State.putSvf_eng (s : State) (u : U8) (a : SvfState) : (s.putSvf u a).eng = s.eng := rfl
@[simp] theorem State.putSvf_sticky (s : State) (u : U8) (a : SvfState) : (s.putSvf u a).sticky = s.sticky := rfl
@[simp] theorem State.putSvf_expiryPending (s : State) (u : U8) (a : SvfState) : (s.putSvf u a).expiryPending = s.expiryPending := rfl
@[simp] theorem State.putSvf_env (s : State) (u : U8) (a : SvfState) : (s.putSvf u a).env = s.env := rfl

/-! ### putBiquad -/

@[simp] theorem State.putBiquad_cfg (s : State) (u : U8) (a : BiquadState) : (s.putBiquad u a).cfg = s.cfg := rfl
@[simp] theorem State.putBiquad_fg (s : State) (u : U8) (a : BiquadState) : (s.putBiquad u a).fg = s.fg := rfl
@[simp] theorem State.putBiquad_isr (s : State) (u : U8) (a : BiquadState) : (s.putBiquad u a).isr = s.isr := rfl
@[simp] theorem State.putBiquad_eng (s : State) (u : U8) (a : BiquadState) : (s.putBiquad u a).eng = s.eng := rfl
@[simp] theorem State.putBiquad_sticky (s : State) (u : U8) (a : BiquadState) : (s.putBiquad u a).sticky = s.sticky := rfl
@[simp] theorem State.putBiquad_expiryPending (s : State) (u : U8) (a : BiquadState) : (s.putBiquad u a).expiryPending = s.expiryPending := rfl
@[simp] theorem State.putBiquad_env (s : State) (u : U8) (a : BiquadState) : (s.putBiquad u a).env = s.env := rfl

/-! ### putDc -/

@[simp] theorem State.putDc_cfg (s : State) (u : U8) (a : DcState) : (s.putDc u a).cfg = s.cfg := rfl
@[simp] theorem State.putDc_fg (s : State) (u : U8) (a : DcState) : (s.putDc u a).fg = s.fg := rfl
@[simp] theorem State.putDc_isr (s : State) (u : U8) (a : DcState) : (s.putDc u a).isr = s.isr := rfl
@[simp] theorem State.putDc_eng (s : State) (u : U8) (a : DcState) : (s.putDc u a).eng = s.eng := rfl
@[simp] theorem State.putDc_sticky (s : State) (u : U8) (a : DcState) : (s.putDc u a).sticky = s.sticky := rfl
@[simp] theorem State.putDc_expiryPending (s : State) (u : U8) (a : DcState) : (s.putDc u a).expiryPending = s.expiryPending := rfl
@[simp] theorem State.putDc_env (s : State) (u : U8) (a : DcState) : (s.putDc u a).env = s.env := rfl

/-! ### putAdsr -/

@[simp] theorem State.putAdsr_cfg (s : State) (u : U8) (a : AdsrState) : (s.putAdsr u a).cfg = s.cfg := rfl
@[simp] theorem State.putAdsr_fg (s : State) (u : U8) (a : AdsrState) : (s.putAdsr u a).fg = s.fg := rfl
@[simp] theorem State.putAdsr_isr (s : State) (u : U8) (a : AdsrState) : (s.putAdsr u a).isr = s.isr := rfl
@[simp] theorem State.putAdsr_eng (s : State) (u : U8) (a : AdsrState) : (s.putAdsr u a).eng = s.eng := rfl
@[simp] theorem State.putAdsr_sticky (s : State) (u : U8) (a : AdsrState) : (s.putAdsr u a).sticky = s.sticky := rfl
@[simp] theorem State.putAdsr_expiryPending (s : State) (u : U8) (a : AdsrState) : (s.putAdsr u a).expiryPending = s.expiryPending := rfl
@[simp] theorem State.putAdsr_env (s : State) (u : U8) (a : AdsrState) : (s.putAdsr u a).env = s.env := rfl

/-! ### putAr -/

@[simp] theorem State.putAr_cfg (s : State) (u : U8) (a : ArState) : (s.putAr u a).cfg = s.cfg := rfl
@[simp] theorem State.putAr_fg (s : State) (u : U8) (a : ArState) : (s.putAr u a).fg = s.fg := rfl
@[simp] theorem State.putAr_isr (s : State) (u : U8) (a : ArState) : (s.putAr u a).isr = s.isr := rfl
@[simp] theorem State.putAr_eng (s : State) (u : U8) (a : ArState) : (s.putAr u a).eng = s.eng := rfl
@[simp] theorem State.putAr_sticky (s : State) (u : U8) (a : ArState) : (s.putAr u a).sticky = s.sticky := rfl
@[simp] theorem State.putAr_expiryPending (s : State) (u : U8) (a : ArState) : (s.putAr u a).expiryPending = s.expiryPending := rfl
@[simp] theorem State.putAr_env (s : State) (u : U8) (a : ArState) : (s.putAr u a).env = s.env := rfl

/-! ### putLfo -/

@[simp] theorem State.putLfo_cfg (s : State) (u : U8) (a : LfoState) : (s.putLfo u a).cfg = s.cfg := rfl
@[simp] theorem State.putLfo_fg (s : State) (u : U8) (a : LfoState) : (s.putLfo u a).fg = s.fg := rfl
@[simp] theorem State.putLfo_isr (s : State) (u : U8) (a : LfoState) : (s.putLfo u a).isr = s.isr := rfl
@[simp] theorem State.putLfo_eng (s : State) (u : U8) (a : LfoState) : (s.putLfo u a).eng = s.eng := rfl
@[simp] theorem State.putLfo_sticky (s : State) (u : U8) (a : LfoState) : (s.putLfo u a).sticky = s.sticky := rfl
@[simp] theorem State.putLfo_expiryPending (s : State) (u : U8) (a : LfoState) : (s.putLfo u a).expiryPending = s.expiryPending := rfl
@[simp] theorem State.putLfo_env (s : State) (u : U8) (a : LfoState) : (s.putLfo u a).env = s.env := rfl

/-! ### The fields an update writes -/

@[simp] theorem State.mapUnits_units (s : State) (f : Units → Units) : (s.mapUnits f).units = f s.units := rfl
@[simp] theorem State.mapEnv_env (s : State) (f : Env → Env) : (s.mapEnv f).env = f s.env := rfl
@[simp] theorem State.mapBank_fg (s : State) (f : Bank → Bank) :
    (s.mapBank f).fg = if s.inIsr then s.fg else f s.fg := rfl
@[simp] theorem State.mapBank_isr (s : State) (f : Bank → Bank) :
    (s.mapBank f).isr = if s.inIsr then f s.isr else s.isr := rfl
@[simp] theorem State.reject_sticky (s : State) (c : CmdError) :
    (s.reject c).sticky = { s.sticky with err := true, lastErr := some c } := rfl
@[simp] theorem State.engineStop_eng (s : State) : s.engineStop.eng = EngState.reset := rfl
@[simp] theorem State.engineStop_expiryPending (s : State) : s.engineStop.expiryPending = false := rfl
@[simp] theorem State.engineStop_env (s : State) :
    s.engineStop.env = (s.env.cancel).write s.cfg.neutral := rfl
@[simp] theorem State.rearmFail_eng (s : State) : s.rearmFail.eng = EngState.reset := rfl
@[simp] theorem State.rearmFail_sticky (s : State) :
    s.rearmFail.sticky = { s.sticky with rearmFail := true } := rfl
@[simp] theorem State.rearmFail_env (s : State) : s.rearmFail.env = s.env.write s.cfg.neutral := rfl
@[simp] theorem State.latchExpiry_expiryPending (s : State) : s.latchExpiry.expiryPending = true := rfl
@[simp] theorem State.clearPending_expiryPending (s : State) : s.clearPending.expiryPending = false := rfl
@[simp] theorem Env.nextTurn_turns (e : Env) : e.nextTurn.turns = e.turns.tail := rfl
@[simp] theorem Env.nextTurn_inputs (e : Env) : e.nextTurn.inputs = e.inputs := rfl
@[simp] theorem Env.nextTurn_answers (e : Env) : e.nextTurn.answers = e.answers := rfl
@[simp] theorem Env.nextTurn_asked (e : Env) : e.nextTurn.asked = e.asked := rfl
@[simp] theorem Env.nextTurn_events (e : Env) : e.nextTurn.events = e.events := rfl
@[simp] theorem Env.nextTurn_timer (e : Env) : e.nextTurn.timer = e.timer := rfl
@[simp] theorem Env.nextTurn_transport (e : Env) : e.nextTurn.transport = e.transport := rfl
@[simp] theorem Env.nextTurn_readData (e : Env) : e.nextTurn.readData = e.readData := rfl
@[simp] theorem State.enterHandler_eng (s : State) :
    s.enterHandler.eng = { s.eng with phase := .inHandler } := rfl
@[simp] theorem State.blockReset_cfg (s : State) : s.blockReset.cfg = s.cfg := rfl
@[simp] theorem State.blockReset_env (s : State) : s.blockReset.env = s.env := rfl
@[simp] theorem State.blockReset_eng (s : State) : s.blockReset.eng = EngState.reset := rfl

/-! ### Units -/

@[simp] theorem State.putPacc_units (s : State) (u : U8) (a : PaccState) :
    (s.putPacc u a).units = { s.units with pacc := s.units.pacc.set u.toNat a } := rfl
@[simp] theorem State.putOsc_units (s : State) (u : U8) (a : OscState) :
    (s.putOsc u a).units = { s.units with osc := s.units.osc.set u.toNat a } := rfl
@[simp] theorem State.putOnepole_units (s : State) (u : U8) (a : OnePoleState) :
    (s.putOnepole u a).units = { s.units with onepole := s.units.onepole.set u.toNat a } := rfl
@[simp] theorem State.putSvf_units (s : State) (u : U8) (a : SvfState) :
    (s.putSvf u a).units = { s.units with svf := s.units.svf.set u.toNat a } := rfl
@[simp] theorem State.putBiquad_units (s : State) (u : U8) (a : BiquadState) :
    (s.putBiquad u a).units = { s.units with biquad := s.units.biquad.set u.toNat a } := rfl
@[simp] theorem State.putDc_units (s : State) (u : U8) (a : DcState) :
    (s.putDc u a).units = { s.units with dc := s.units.dc.set u.toNat a } := rfl
@[simp] theorem State.putAdsr_units (s : State) (u : U8) (a : AdsrState) :
    (s.putAdsr u a).units = { s.units with adsr := s.units.adsr.set u.toNat a } := rfl
@[simp] theorem State.putAr_units (s : State) (u : U8) (a : ArState) :
    (s.putAr u a).units = { s.units with ar := s.units.ar.set u.toNat a } := rfl
@[simp] theorem State.putLfo_units (s : State) (u : U8) (a : LfoState) :
    (s.putLfo u a).units = { s.units with lfo := s.units.lfo.set u.toNat a } := rfl

/-! ### Banks and context -/

@[simp] theorem State.inIsr_eq_irq (s : State) : s.irq = s.inIsr := rfl

/-- An update that keeps the engine keeps the context. -/
theorem State.inIsr_congr {s t : State} (h : t.eng = s.eng) : t.inIsr = s.inIsr := by
  simp [State.inIsr, h]

@[simp] theorem State.mapBank_inIsr (s : State) (f : Bank → Bank) : (s.mapBank f).inIsr = s.inIsr := rfl
@[simp] theorem State.mapUnits_inIsr (s : State) (f : Units → Units) : (s.mapUnits f).inIsr = s.inIsr := rfl
@[simp] theorem State.reject_inIsr (s : State) (c : CmdError) : (s.reject c).inIsr = s.inIsr := rfl

/-- The changed bank is the one the context selects. -/
@[simp] theorem State.mapBank_bank (s : State) (f : Bank → Bank) : (s.mapBank f).bank = f s.bank := by
  unfold State.bank
  rw [State.mapBank_inIsr, State.mapBank_fg, State.mapBank_isr]
  by_cases h : s.inIsr = true <;> simp [h]

@[simp] theorem State.mapUnits_bank (s : State) (f : Units → Units) : (s.mapUnits f).bank = s.bank := rfl
@[simp] theorem State.reject_bank (s : State) (c : CmdError) : (s.reject c).bank = s.bank := rfl

@[simp] theorem Bank.op_setOp_same (b : Bank) (k : Fin 5) (v : U32) : (b.setOp k v).op k = v := by
  fin_cases k <;> rfl
theorem Bank.op_setOp_other (b : Bank) {j k : Fin 5} (v : U32) (h : j ≠ k) :
    (b.setOp k v).op j = b.op j := by
  fin_cases j <;> fin_cases k <;> first | rfl | exact absurd rfl h
@[simp] theorem Bank.res_setOp (b : Bank) (k : Fin 5) (j : Fin 8) (v : U32) :
    (b.setOp k v).res j = b.res j := by
  fin_cases k <;> rfl
@[simp] theorem Bank.res_setRes_same (b : Bank) (k : Fin 8) (v : U32) : (b.setRes k v).res k = v := by
  fin_cases k <;> rfl
theorem Bank.res_setRes_other (b : Bank) {j k : Fin 8} (v : U32) (h : j ≠ k) :
    (b.setRes k v).res j = b.res j := by
  fin_cases j <;> fin_cases k <;> first | rfl | exact absurd rfl h

/-- A command's results leave the operand registers of both banks (10_state.md R57). -/
theorem State.putRes_op (s : State) (vs : List U32) (k : Fin 5) :
    (s.putRes vs).fg.op k = s.fg.op k ∧ (s.putRes vs).isr.op k = s.isr.op k := by
  unfold State.putRes State.mapBank
  cases h : s.inIsr <;> fin_cases k <;> simp [Bank.op]

/-- The result registers after `putRes`: the results in order, the others as before (10_state.md R57). -/
theorem State.putRes_res (s : State) (vs : List U32) (k : Fin 8) :
    (s.putRes vs).bank.res k = vs.getD k.val (s.bank.res k) := by
  unfold State.putRes
  rw [State.mapBank_bank]
  fin_cases k <;> rfl

end Sys2Proof.Machine
end

