-- ==== Sys2Proof/Laws/Ops.lean ====
section
/-! SUPPORT. One lemma for each shared operation that says once everything it can do. -/

namespace Sys2Proof.Machine

/-! ### The checks of a command -/

/-- The unit check: the rule runs on the record there is, or the command is rejected. -/
theorem withUnit_cases {α : Type} (records : List α) (u : U8) (s : State) (rule : α → State) :
    (∃ a, records[u.toNat]? = some a ∧ u.toNat < records.length ∧ withUnit records u s rule = rule a) ∨
    (records.length ≤ u.toNat ∧ withUnit records u s rule = s.reject .badUnit) := by
  unfold withUnit
  rcases h : records[u.toNat]? with _ | a
  · exact .inr ⟨List.getElem?_eq_none_iff.1 h, rfl⟩
  · exact .inl ⟨a, rfl, (List.getElem?_eq_some_iff.1 h).1, rfl⟩

@[simp] theorem withUnit_of_some {α : Type} {records : List α} {u : U8} {a : α} (s : State)
    (rule : α → State) (h : records[u.toNat]? = some a) : withUnit records u s rule = rule a := by
  simp [withUnit, h]

@[simp] theorem withUnit_of_none {α : Type} {records : List α} {u : U8} (s : State)
    (rule : α → State) (h : records.length ≤ u.toNat) :
    withUnit records u s rule = s.reject .badUnit := by
  simp [withUnit, List.getElem?_eq_none_iff.2 h]

@[simp] theorem withSelector_some {α : Type} (x : α) (s : State) (rule : α → State) :
    withSelector (some x) s rule = rule x := rfl

@[simp] theorem withSelector_none {α : Type} (s : State) (rule : α → State) :
    withSelector none s rule = s.reject .badSelector := rfl

/-- The selector check: the rule runs on what the selector stands for, or the command is rejected. -/
theorem withSelector_cases {α : Type} (sel : Option α) (s : State) (rule : α → State) :
    (∃ x, sel = some x ∧ withSelector sel s rule = rule x) ∨
    (sel = none ∧ withSelector sel s rule = s.reject .badSelector) := by
  cases sel with
  | none => exact .inr ⟨rfl, rfl⟩
  | some x => exact .inl ⟨x, rfl, rfl⟩

theorem inFgOnly_of_fg {s : State} (rule : State) (h : s.inIsr = false) : inFgOnly s rule = rule := by
  simp [inFgOnly, h]

theorem inFgOnly_of_isr {s : State} (rule : State) (h : s.inIsr = true) :
    inFgOnly s rule = s.reject .context := by
  simp [inFgOnly, h]

theorem inIsrOnly_of_isr {s : State} (rule : State) (h : s.inIsr = true) : inIsrOnly s rule = rule := by
  simp [inIsrOnly, h]

theorem inIsrOnly_of_fg {s : State} (rule : State) (h : s.inIsr = false) :
    inIsrOnly s rule = s.reject .context := by
  simp [inIsrOnly, h]

/-! ### The agents -/

/-- An arm: the answer, the event, and a timer that is armed if the answer is yes. -/
theorem Env.armOnce_spec (e : Env) (us : U32) :
    (e.armOnce us).1 = e.nextAnswer ∧
    (e.armOnce us).2.events = e.events ++ [.armOnce us e.nextAnswer] ∧
    (e.armOnce us).2.timer = (if e.nextAnswer then .armed us else e.timer) ∧
    (e.armOnce us).2.inputs = e.inputs ∧ (e.armOnce us).2.turns = e.turns ∧
    (e.armOnce us).2.readData = e.readData ∧ (e.armOnce us).2.transport = e.transport :=
  ⟨rfl, rfl, rfl, rfl, rfl, rfl, rfl⟩

/-- A configure: the answer and the event. -/
theorem Env.configure_spec (e : Env) (pin rate : U32) :
    (e.configure pin rate).1 = e.nextAnswer ∧
    (e.configure pin rate).2.events = e.events ++ [.configure pin rate e.nextAnswer] ∧
    (e.configure pin rate).2.timer = e.timer ∧
    (e.configure pin rate).2.inputs = e.inputs ∧ (e.configure pin rate).2.turns = e.turns ∧
    (e.configure pin rate).2.readData = e.readData := ⟨rfl, rfl, rfl, rfl, rfl, rfl⟩

/-! ### Re-arm, expiry and return -/

/-- A re-arm succeeds and the engine is ARMED, or fails and it is stopped (60_exceptions.md R470). -/
theorem State.rearm_cases (s : State) :
    (s.env.nextAnswer = true ∧
      s.rearm = { s with
        eng := { s.eng with phase := .armed }, env := (s.env.armOnce s.eng.period).2 }) ∨
    (s.env.nextAnswer = false ∧
      s.rearm = State.rearmFail { s with env := (s.env.armOnce s.eng.period).2 }) := by
  unfold State.rearm Env.armOnce
  cases h : s.env.nextAnswer
  · exact .inr ⟨rfl, by simp⟩
  · exact .inl ⟨rfl, by simp⟩

@[simp] theorem State.rearm_cfg (s : State) : s.rearm.cfg = s.cfg := by
  rcases s.rearm_cases with ⟨-, h⟩ | ⟨-, h⟩ <;> simp [h]
@[simp] theorem State.rearm_fg (s : State) : s.rearm.fg = s.fg := by
  rcases s.rearm_cases with ⟨-, h⟩ | ⟨-, h⟩ <;> simp [h]
@[simp] theorem State.rearm_isr (s : State) : s.rearm.isr = s.isr := by
  rcases s.rearm_cases with ⟨-, h⟩ | ⟨-, h⟩ <;> simp [h]
@[simp] theorem State.rearm_units (s : State) : s.rearm.units = s.units := by
  rcases s.rearm_cases with ⟨-, h⟩ | ⟨-, h⟩ <;> simp [h]
@[simp] theorem State.rearm_expiryPending (s : State) : s.rearm.expiryPending = s.expiryPending := by
  rcases s.rearm_cases with ⟨-, h⟩ | ⟨-, h⟩ <;> simp [h]

/-- The expiry handling step: stale, silence, or handler entry (60_exceptions.md R465, R471). -/
theorem State.takeExpiry_cases (s : State) :
    (s.eng.phase ≠ .armed ∧ s.takeExpiry = s) ∨
    (s.eng.phase = .armed ∧ s.eng.cb = 0#32 ∧ s.takeExpiry = s.writeNeutral.rearm) ∨
    (s.eng.phase = .armed ∧ s.eng.cb ≠ 0#32 ∧ s.takeExpiry = s.enterHandler) := by
  unfold State.takeExpiry
  by_cases hp : s.eng.phase = .armed
  · by_cases hc : s.eng.cb = 0#32
    · exact .inr (.inl ⟨hp, hc, by simp [hp, hc]⟩)
    · exact .inr (.inr ⟨hp, hc, by simp [hp, hc]⟩)
  · exact .inl ⟨hp, by simp [hp]⟩

@[simp] theorem State.takeExpiry_cfg (s : State) : s.takeExpiry.cfg = s.cfg := by
  rcases s.takeExpiry_cases with ⟨-, h⟩ | ⟨-, -, h⟩ | ⟨-, -, h⟩ <;> simp [h]
@[simp] theorem State.takeExpiry_units (s : State) : s.takeExpiry.units = s.units := by
  rcases s.takeExpiry_cases with ⟨-, h⟩ | ⟨-, -, h⟩ | ⟨-, -, h⟩ <;> simp [h]
@[simp] theorem State.takeExpiry_fg (s : State) : s.takeExpiry.fg = s.fg := by
  rcases s.takeExpiry_cases with ⟨-, h⟩ | ⟨-, -, h⟩ | ⟨-, -, h⟩ <;> simp [h]
/-- The handling leaves an expiry that arrived meanwhile latched (10_state.md R72). -/
@[simp] theorem State.takeExpiry_expiryPending (s : State) :
    s.takeExpiry.expiryPending = s.expiryPending := by
  rcases s.takeExpiry_cases with ⟨-, h⟩ | ⟨-, -, h⟩ | ⟨-, -, h⟩ <;> simp [h]
@[simp] theorem State.takeExpiry_isr (s : State) : s.takeExpiry.isr = s.isr := by
  rcases s.takeExpiry_cases with ⟨-, h⟩ | ⟨-, -, h⟩ | ⟨-, -, h⟩ <;> simp [h]

/-! ### Begin -/

/-- A begin of a STOPPED engine: a bad rate, a refused configure, a refused arm, or success
(44_engine.md R403). -/
theorem State.engBegin_cases (s : State) (rate pin cb : U32) :
    ((rate = 0#32 ∨ Config.engRateMax < rate) ∧ s.engBegin rate pin cb = s.beginFail) ∨
    (¬(rate = 0#32 ∨ Config.engRateMax < rate) ∧
      (((s.env.configure pin rate).1 = false ∧
          s.engBegin rate pin cb = State.beginFail { s with env := (s.env.configure pin rate).2 }) ∨
       ((s.env.configure pin rate).1 = true ∧
        ((((s.env.configure pin rate).2.armOnce (period rate)).1 = false ∧
            s.engBegin rate pin cb = State.beginFail (State.writeNeutral
              { s with env := ((s.env.configure pin rate).2.armOnce (period rate)).2 })) ∨
         (((s.env.configure pin rate).2.armOnce (period rate)).1 = true ∧
            s.engBegin rate pin cb = State.putRes
              { s with
                env := ((s.env.configure pin rate).2.armOnce (period rate)).2
                eng := { phase := .armed, cb := cb, rate := rate, period := period rate, pin := pin } }
              [1#32]))))) := by
  unfold State.engBegin
  by_cases hr : rate = 0#32 ∨ Config.engRateMax < rate
  · exact .inl ⟨hr, by simp [hr]⟩
  · refine .inr ⟨hr, ?_⟩
    rw [if_neg hr]
    rcases hc : s.env.configure pin rate with ⟨b, e⟩
    cases b
    · exact .inl ⟨rfl, rfl⟩
    · refine .inr ⟨rfl, ?_⟩
      rcases ha : e.armOnce (period rate) with ⟨b', e'⟩
      cases b'
      · exact .inl ⟨rfl, by simp [ha]⟩
      · exact .inr ⟨rfl, by simp [ha]⟩

@[simp] theorem State.beginFail_cfg (s : State) : s.beginFail.cfg = s.cfg := rfl
@[simp] theorem State.beginFail_units (s : State) : s.beginFail.units = s.units := rfl
@[simp] theorem State.beginFail_eng (s : State) : s.beginFail.eng = EngState.reset := rfl
@[simp] theorem State.beginFail_env (s : State) : s.beginFail.env = s.env := rfl
@[simp] theorem State.beginFail_expiryPending (s : State) : s.beginFail.expiryPending = s.expiryPending := rfl

end Sys2Proof.Machine
end

