-- ==== Sys2Proof/Laws/PerInstr.lean ====
section
/-! SUPPORT. Statements made of every command, one lemma for each constructor of `Instr`. -/

namespace Sys2Proof.Laws

/-- The fields of a word are the bytes it is written from (30_encoding.md R130). -/
theorem word_fields (opc unit sel : U8) :
    wordOpc (word opc unit sel) = opc ∧ wordUnit (word opc unit sel) = unit ∧
    wordSel (word opc unit sel) = sel ∧ wordRsv (word opc unit sel) = 0x00#8 := by
  refine ⟨?_, ?_, ?_, ?_⟩ <;> simp only [word, wordOpc, wordUnit, wordSel, wordRsv] <;> ext i hi <;>
    simp only [BitVec.getElem_extractLsb', BitVec.getLsbD_append]
  · have h1 : ¬ (24 + i < 8) := by omega
    have h2 : ¬ (24 + i - 8 < 8) := by omega
    have h3 : ¬ (24 + i - 8 - 8 < 8) := by omega
    have h4 : 24 + i - 8 - 8 - 8 = i := by omega
    simp [h1, h2, h3, h4, BitVec.getLsbD_eq_getElem hi]
  · have h1 : ¬ (16 + i < 8) := by omega
    have h2 : ¬ (16 + i - 8 < 8) := by omega
    have h3 : 16 + i - 8 - 8 = i := by omega
    simp [h1, h2, h3, hi]
  · have h1 : ¬ (8 + i < 8) := by omega
    have h2 : 8 + i - 8 = i := by omega
    simp [h1, h2, hi]
  · simp [hi]

/-- What is said of every command: its word has the opcode of a row and RSV = 0 (30_encoding.md R130,
R134). -/
def EncodedWordFits.Statement (i : Instr) : Prop :=
  (opcodeMap (wordOpc (encode i)).toNat).isSome = true ∧ wordRsv (encode i) = 0x00#8

/-- A word of a row of the opcode map fits. -/
theorem word_fits (opc unit sel : U8) (h : (opcodeMap opc.toNat).isSome = true) :
    (opcodeMap (wordOpc (word opc unit sel)).toNat).isSome = true ∧ wordRsv (word opc unit sel) = 0x00#8 :=
  ⟨by rw [(word_fields opc unit sel).1]; exact h, (word_fields opc unit sel).2.2.2⟩

theorem EncodedWordFits.nop : EncodedWordFits.Statement .nop :=
  word_fits 0x00#8 _ _ rfl
theorem EncodedWordFits.engBegin : EncodedWordFits.Statement .engBegin :=
  word_fits 0x01#8 _ _ rfl
theorem EncodedWordFits.engEnd : EncodedWordFits.Statement .engEnd :=
  word_fits 0x02#8 _ _ rfl
theorem EncodedWordFits.engSetCallback : EncodedWordFits.Statement .engSetCallback :=
  word_fits 0x03#8 _ _ rfl
theorem EncodedWordFits.engReturn : EncodedWordFits.Statement .engReturn :=
  word_fits 0x04#8 _ _ rfl
theorem EncodedWordFits.paccSetFreq (u : U8) : EncodedWordFits.Statement (.paccSetFreq u) :=
  word_fits 0x10#8 _ _ rfl
theorem EncodedWordFits.paccSetSr (u : U8) : EncodedWordFits.Statement (.paccSetSr u) :=
  word_fits 0x11#8 _ _ rfl
theorem EncodedWordFits.paccSetPhase (u : U8) : EncodedWordFits.Statement (.paccSetPhase u) :=
  word_fits 0x12#8 _ _ rfl
theorem EncodedWordFits.paccTick (u : U8) : EncodedWordFits.Statement (.paccTick u) :=
  word_fits 0x13#8 _ _ rfl
theorem EncodedWordFits.paccGet (u : U8) : EncodedWordFits.Statement (.paccGet u) :=
  word_fits 0x14#8 _ _ rfl
theorem EncodedWordFits.oscSetFreq (u : U8) : EncodedWordFits.Statement (.oscSetFreq u) :=
  word_fits 0x20#8 _ _ rfl
theorem EncodedWordFits.oscSetSr (u : U8) : EncodedWordFits.Statement (.oscSetSr u) :=
  word_fits 0x21#8 _ _ rfl
theorem EncodedWordFits.oscSetPhase (u : U8) : EncodedWordFits.Statement (.oscSetPhase u) :=
  word_fits 0x22#8 _ _ rfl
theorem EncodedWordFits.oscSetAmp (u : U8) : EncodedWordFits.Statement (.oscSetAmp u) :=
  word_fits 0x23#8 _ _ rfl
theorem EncodedWordFits.oscSetTable (u sel : U8) : EncodedWordFits.Statement (.oscSetTable u sel) :=
  word_fits 0x24#8 _ _ rfl
theorem EncodedWordFits.oscProcess (u : U8) : EncodedWordFits.Statement (.oscProcess u) :=
  word_fits 0x25#8 _ _ rfl
theorem EncodedWordFits.oscGet (u : U8) : EncodedWordFits.Statement (.oscGet u) :=
  word_fits 0x26#8 _ _ rfl
theorem EncodedWordFits.onepoleSetCutoff (u : U8) : EncodedWordFits.Statement (.onepoleSetCutoff u) :=
  word_fits 0x30#8 _ _ rfl
theorem EncodedWordFits.onepoleSetSr (u : U8) : EncodedWordFits.Statement (.onepoleSetSr u) :=
  word_fits 0x31#8 _ _ rfl
theorem EncodedWordFits.onepoleSetMode (u sel : U8) : EncodedWordFits.Statement (.onepoleSetMode u sel) :=
  word_fits 0x32#8 _ _ rfl
theorem EncodedWordFits.onepoleProcess (u : U8) : EncodedWordFits.Statement (.onepoleProcess u) :=
  word_fits 0x33#8 _ _ rfl
theorem EncodedWordFits.onepoleReset (u : U8) : EncodedWordFits.Statement (.onepoleReset u) :=
  word_fits 0x34#8 _ _ rfl
theorem EncodedWordFits.onepoleGet (u : U8) : EncodedWordFits.Statement (.onepoleGet u) :=
  word_fits 0x35#8 _ _ rfl
theorem EncodedWordFits.svfSetCutoff (u : U8) : EncodedWordFits.Statement (.svfSetCutoff u) :=
  word_fits 0x40#8 _ _ rfl
theorem EncodedWordFits.svfSetRes (u : U8) : EncodedWordFits.Statement (.svfSetRes u) :=
  word_fits 0x41#8 _ _ rfl
theorem EncodedWordFits.svfSetSr (u : U8) : EncodedWordFits.Statement (.svfSetSr u) :=
  word_fits 0x42#8 _ _ rfl
theorem EncodedWordFits.svfProcess (u : U8) : EncodedWordFits.Statement (.svfProcess u) :=
  word_fits 0x43#8 _ _ rfl
theorem EncodedWordFits.svfReset (u : U8) : EncodedWordFits.Statement (.svfReset u) :=
  word_fits 0x44#8 _ _ rfl
theorem EncodedWordFits.svfGet (u : U8) : EncodedWordFits.Statement (.svfGet u) :=
  word_fits 0x45#8 _ _ rfl
theorem EncodedWordFits.bqSetCutoff (u : U8) : EncodedWordFits.Statement (.bqSetCutoff u) :=
  word_fits 0x50#8 _ _ rfl
theorem EncodedWordFits.bqSetSr (u : U8) : EncodedWordFits.Statement (.bqSetSr u) :=
  word_fits 0x51#8 _ _ rfl
theorem EncodedWordFits.bqSetType (u sel : U8) : EncodedWordFits.Statement (.bqSetType u sel) :=
  word_fits 0x52#8 _ _ rfl
theorem EncodedWordFits.bqSetCoeffs (u : U8) : EncodedWordFits.Statement (.bqSetCoeffs u) :=
  word_fits 0x53#8 _ _ rfl
theorem EncodedWordFits.bqProcess (u : U8) : EncodedWordFits.Statement (.bqProcess u) :=
  word_fits 0x54#8 _ _ rfl
theorem EncodedWordFits.bqReset (u : U8) : EncodedWordFits.Statement (.bqReset u) :=
  word_fits 0x55#8 _ _ rfl
theorem EncodedWordFits.bqGet (u sel : U8) : EncodedWordFits.Statement (.bqGet u sel) :=
  word_fits 0x56#8 _ _ rfl
theorem EncodedWordFits.dcProcess (u : U8) : EncodedWordFits.Statement (.dcProcess u) :=
  word_fits 0x60#8 _ _ rfl
theorem EncodedWordFits.dcReset (u : U8) : EncodedWordFits.Statement (.dcReset u) :=
  word_fits 0x61#8 _ _ rfl
theorem EncodedWordFits.dcGet (u : U8) : EncodedWordFits.Statement (.dcGet u) :=
  word_fits 0x62#8 _ _ rfl
theorem EncodedWordFits.adsrSetAttack (u : U8) : EncodedWordFits.Statement (.adsrSetAttack u) :=
  word_fits 0x70#8 _ _ rfl
theorem EncodedWordFits.adsrSetDecay (u : U8) : EncodedWordFits.Statement (.adsrSetDecay u) :=
  word_fits 0x71#8 _ _ rfl
theorem EncodedWordFits.adsrSetSustain (u : U8) : EncodedWordFits.Statement (.adsrSetSustain u) :=
  word_fits 0x72#8 _ _ rfl
theorem EncodedWordFits.adsrSetRelease (u : U8) : EncodedWordFits.Statement (.adsrSetRelease u) :=
  word_fits 0x73#8 _ _ rfl
theorem EncodedWordFits.adsrSetSr (u : U8) : EncodedWordFits.Statement (.adsrSetSr u) :=
  word_fits 0x74#8 _ _ rfl
theorem EncodedWordFits.adsrNoteOn (u : U8) : EncodedWordFits.Statement (.adsrNoteOn u) :=
  word_fits 0x75#8 _ _ rfl
theorem EncodedWordFits.adsrNoteOff (u : U8) : EncodedWordFits.Statement (.adsrNoteOff u) :=
  word_fits 0x76#8 _ _ rfl
theorem EncodedWordFits.adsrProcess (u : U8) : EncodedWordFits.Statement (.adsrProcess u) :=
  word_fits 0x77#8 _ _ rfl
theorem EncodedWordFits.adsrGet (u sel : U8) : EncodedWordFits.Statement (.adsrGet u sel) :=
  word_fits 0x78#8 _ _ rfl
theorem EncodedWordFits.arSetAttack (u : U8) : EncodedWordFits.Statement (.arSetAttack u) :=
  word_fits 0x80#8 _ _ rfl
theorem EncodedWordFits.arSetRelease (u : U8) : EncodedWordFits.Statement (.arSetRelease u) :=
  word_fits 0x81#8 _ _ rfl
theorem EncodedWordFits.arSetSr (u : U8) : EncodedWordFits.Statement (.arSetSr u) :=
  word_fits 0x82#8 _ _ rfl
theorem EncodedWordFits.arTrigger (u : U8) : EncodedWordFits.Statement (.arTrigger u) :=
  word_fits 0x83#8 _ _ rfl
theorem EncodedWordFits.arProcess (u : U8) : EncodedWordFits.Statement (.arProcess u) :=
  word_fits 0x84#8 _ _ rfl
theorem EncodedWordFits.arGet (u : U8) : EncodedWordFits.Statement (.arGet u) :=
  word_fits 0x85#8 _ _ rfl
theorem EncodedWordFits.lfoSetFreq (u : U8) : EncodedWordFits.Statement (.lfoSetFreq u) :=
  word_fits 0x90#8 _ _ rfl
theorem EncodedWordFits.lfoSetSr (u : U8) : EncodedWordFits.Statement (.lfoSetSr u) :=
  word_fits 0x91#8 _ _ rfl
theorem EncodedWordFits.lfoSetShape (u sel : U8) : EncodedWordFits.Statement (.lfoSetShape u sel) :=
  word_fits 0x92#8 _ _ rfl
theorem EncodedWordFits.lfoSetSeed (u : U8) : EncodedWordFits.Statement (.lfoSetSeed u) :=
  word_fits 0x93#8 _ _ rfl
theorem EncodedWordFits.lfoProcess (u : U8) : EncodedWordFits.Statement (.lfoProcess u) :=
  word_fits 0x94#8 _ _ rfl
theorem EncodedWordFits.lfoGet (u : U8) : EncodedWordFits.Statement (.lfoGet u) :=
  word_fits 0x95#8 _ _ rfl
theorem EncodedWordFits.wtLookup (sel : U8) : EncodedWordFits.Statement (.wtLookup sel) :=
  word_fits 0xA0#8 _ _ rfl

end Sys2Proof.Laws
end

