-- ==== Sys2Proof/Laws/Step.lean ====
section
/-! SUPPORT. What one step can do, said once: every statement about `step` follows from these cases. -/

namespace Sys2Proof.Machine

/-- The reset input comes before everything (70_reset_and_hazards.md R500). -/
theorem step_of_reset {s : State} (h : s.env.turn = .reset) :
    step s = .next (s.mapEnv Env.nextTurn).blockReset := by
  simp [step, stepBlock, h]

/-- A latched expiry is the next step (10_state.md R72). -/
theorem step_of_pending {s : State} {g : Arrival} (ht : s.env.turn = .work g)
    (h : s.expiryPending = true) :
    step s = during g (fun t => .next t.takeExpiry) (s.mapEnv Env.nextTurn).clearPending := by
  simp [step, stepBlock, ht, h]

/-- With nothing pending and no input the block is idle. -/
theorem step_of_idle {s : State} {g : Arrival} (ht : s.env.turn = .work g) (h : s.expiryPending = false)
    (hi : s.env.inputs = []) : step s = .next s := by
  simp [step, stepBlock, ht, h, hi]

/-- With nothing pending the next input is taken. -/
theorem step_of_input {s : State} {g : Arrival} {i : Input} {rest : List Input}
    (ht : s.env.turn = .work g) (h : s.expiryPending = false) (hi : s.env.inputs = i :: rest) :
    step s = during g (accept i) (s.mapEnv fun e => { e.nextTurn with inputs := rest }) := by
  simp [step, stepBlock, ht, h, hi]

/-- Every step is a reset, a latched expiry, idleness or an input. -/
theorem step_cases (s : State) :
    (s.env.turn = .reset ∧ step s = .next (s.mapEnv Env.nextTurn).blockReset) ∨
    ∃ g, s.env.turn = .work g ∧
      ((s.expiryPending = true ∧
        step s = during g (fun t => .next t.takeExpiry) (s.mapEnv Env.nextTurn).clearPending) ∨
      (s.expiryPending = false ∧ s.env.inputs = [] ∧ step s = .next s) ∨
      (∃ i rest, s.expiryPending = false ∧ s.env.inputs = i :: rest ∧
        step s = during g (accept i) (s.mapEnv fun e => { e.nextTurn with inputs := rest }))) := by
  rcases ht : s.env.turn with g | _
  · refine .inr ⟨g, rfl, ?_⟩
    cases hp : s.expiryPending
    · rcases hi : s.env.inputs with _ | ⟨i, rest⟩
      · exact .inr (.inl ⟨rfl, rfl, step_of_idle ht hp hi⟩)
      · exact .inr (.inr ⟨i, rest, rfl, rfl, step_of_input ht hp hi⟩)
    · exact .inl ⟨rfl, step_of_pending ht hp⟩
  · exact .inl ⟨rfl, step_of_reset ht⟩

/-- The work of a step reaches its next state from the state before it, with or without a latched expiry in
it, and an expiry may be latched after it (10_state.md R72). -/
theorem during_cases {g : Arrival} {work : State → Host.Outcome State Fault Refusal} {s t : State}
    (h : during g work s = .next t) :
    (g = .none ∧ work s = .next t) ∨ (g = .early ∧ work s.latchExpiry = .next t) ∨
    (g = .late ∧ ∃ u, work s = .next u ∧ t = u.latchExpiry) := by
  cases g with
  | none => exact .inl ⟨rfl, h⟩
  | early => exact .inr (.inl ⟨rfl, h⟩)
  | late =>
    refine .inr (.inr ⟨rfl, ?_⟩)
    unfold during at h
    rcases ho : work s with u | f | r <;> rw [ho] at h <;> cases h
    exact ⟨u, rfl, rfl⟩

/-- Every command answers a next state: `exec` neither faults nor refuses (60_exceptions.md R450). -/
theorem exec_eq_next (i : Instr) (s : State) : ∃ t, exec i s = .next t := by
  cases i <;> exact ⟨_, rfl⟩

/-- A write to CMD answers a next state. -/
theorem command_eq_next (w : U32) (s : State) : ∃ t, command w s = .next t := by
  unfold command
  split
  · exact exec_eq_next _ s
  · exact ⟨_, rfl⟩

/-- A write of a register answers a next state. -/
theorem writeReg_eq_next (s : State) (w : U32) (r : Register) : ∃ t, s.writeReg w r = .next t := by
  cases r <;> first | exact ⟨_, rfl⟩ | exact command_eq_next w s

/-- What a write of a register can do (10_state.md R51). -/
theorem writeReg_cases (s : State) (w : U32) (r : Register) :
    (s.writeReg w r = .next s) ∨ (r = .status ∧ s.writeReg w r = .next (s.writeStatus w)) ∨
    (r = .cmd ∧ s.writeReg w r = command w s) ∨
    (∃ k, r = .op k ∧ s.writeReg w r = .next (s.mapBank fun b => b.setOp k w)) := by
  cases r <;> simp [State.writeReg]

/-- What a bus access can do (20_memory.md R101, R103, R105). -/
theorem busAccess_cases (a : BusAccess) (s : State) :
    (windowOffset s.cfg.baseAddr a.addr = none ∧ busAccess a s = .next s) ∨
    (∃ off, windowOffset s.cfg.baseAddr a.addr = some off ∧ a.accepted off = false ∧
      busAccess a s = .refused .busError) ∨
    (∃ off w, windowOffset s.cfg.baseAddr a.addr = some off ∧ a.accepted off = true ∧
      a.write = some w ∧ busAccess a s = s.writeReg w (registerAt off)) ∨
    (∃ off, windowOffset s.cfg.baseAddr a.addr = some off ∧ a.accepted off = true ∧ a.write = none ∧
      busAccess a s =
        .next (s.mapEnv fun e => { e with readData := some (s.readReg (registerAt off)) })) := by
  unfold busAccess
  rcases hw : windowOffset s.cfg.baseAddr a.addr with _ | off
  · exact .inl ⟨rfl, rfl⟩
  · cases ha : a.accepted off
    · exact .inr (.inl ⟨off, rfl, ha, by simp [ha]⟩)
    · rcases hwr : a.write with _ | w
      · exact .inr (.inr (.inr ⟨off, rfl, ha, rfl, by simp [ha]⟩))
      · exact .inr (.inr (.inl ⟨off, w, rfl, ha, rfl, by simp [ha]⟩))

/-- The CMD offset is the command port's. -/
theorem windowOffset_cmd (base : Nat) : windowOffset base (base + cmdOffset) = some cmdOffset := by
  simp [windowOffset, cmdOffset]

/-- The write of a command word that `withFetchWord` places is a command. -/
theorem accept_cmdWrite (w : U32) (s : State) : accept (cmdWrite s.cfg.baseAddr w) s = command w s := by
  simp only [accept, cmdWrite, busAccess, windowOffset_cmd]
  rfl

/-! ### Invariants, once -/

/-- What is kept by a command, a rejection, an operand or STATUS write, an expiry handling, a reset and any
change outside the block is kept by every step. -/
theorem step_keeps {Inv : State → Prop} (hexec : ∀ i s t, Inv s → exec i s = .next t → Inv t)
    (hreject : ∀ s c, Inv s → Inv (s.reject c)) (hstatus : ∀ s w, Inv s → Inv (s.writeStatus w))
    (hop : ∀ s k w, Inv s → Inv (s.mapBank fun b => b.setOp k w)) (htake : ∀ s, Inv s → Inv s.takeExpiry)
    (hreset : ∀ s, Inv s → Inv s.blockReset) (henv : ∀ s f, Inv s → Inv (s.mapEnv f))
    (hpending : ∀ s b, Inv s → Inv { s with expiryPending := b }) {s t : State} (h : Inv s)
    (hs : step s = .next t) : Inv t := by
  have hlatch : ∀ s, Inv s → Inv s.latchExpiry := fun s h => hpending _ true (henv s _ h)
  have hcommand : ∀ w s t, Inv s → command w s = .next t → Inv t := by
    intro w s t h hs
    unfold command at hs
    split at hs
    · exact hexec _ _ _ h hs
    · cases hs; exact hreject _ _ h
  have haccess : ∀ a s t, Inv s → busAccess a s = .next t → Inv t := by
    intro a s t h hs
    rcases busAccess_cases a s with ⟨-, e⟩ | ⟨_, -, -, e⟩ | ⟨_, w, -, -, -, e⟩ | ⟨_, -, -, -, e⟩ <;>
      rw [e] at hs
    · cases hs; exact h
    · cases hs
    · rcases writeReg_cases s w (registerAt _) with e | ⟨-, e⟩ | ⟨-, e⟩ | ⟨k, -, e⟩ <;> rw [e] at hs
      · cases hs; exact h
      · cases hs; exact hstatus _ _ h
      · exact hcommand _ _ _ h hs
      · cases hs; exact hop _ _ _ h
    · cases hs; exact henv _ _ h
  have hduring : ∀ g work s t, (∀ s t, Inv s → work s = .next t → Inv t) → Inv s →
      during g work s = .next t → Inv t := by
    intro g work s t hw h hd
    rcases during_cases hd with ⟨-, e⟩ | ⟨-, e⟩ | ⟨-, u, e, rfl⟩
    · exact hw _ _ h e
    · exact hw _ _ (hlatch _ h) e
    · exact hlatch _ (hw _ _ h e)
  have hhandle : ∀ s t, Inv s → (.next s.takeExpiry : Host.Outcome State Fault Refusal) = .next t → Inv t := by
    intro s t h e; cases e; exact htake _ h
  rcases step_cases s with ⟨-, e⟩ | ⟨g, -, ⟨-, e⟩ | ⟨-, -, e⟩ | ⟨i, rest, -, -, e⟩⟩ <;> rw [e] at hs
  · cases hs; exact hreset _ (henv _ _ h)
  · exact hduring _ _ _ _ hhandle (hpending _ false (henv _ _ h)) hs
  · cases hs; exact h
  · refine hduring _ _ _ _ (fun s t h e => ?_) (henv _ _ h) hs
    cases i with
    | expire => exact hhandle _ _ (henv _ _ h) e
    | bus a => exact haccess _ _ _ h e

/-- What is said of the parameters and the units alone is kept by every step if commands and reset keep it. -/
theorem step_keeps_units {P : Config.Params → Units → Prop}
    (hexec : ∀ i s t, P s.cfg s.units → exec i s = .next t → P t.cfg t.units)
    (hreset : ∀ p u, P p u → P p (Units.reset u.counts)) {s t : State} (h : P s.cfg s.units)
    (hs : step s = .next t) : P t.cfg t.units :=
  step_keeps (Inv := fun s => P s.cfg s.units) hexec (fun _ _ h => h) (fun _ _ h => h) (fun _ _ _ h => h)
    (fun s h => by simpa using h) (fun s h => hreset s.cfg s.units h) (fun _ _ h => h) (fun _ _ h => h) h hs

end Sys2Proof.Machine
end

