-- ==== Sys2Proof/Tests/Slice0.lean ====
section
/-! SUPPORT. Tests: ill-formed commands are refused by the value checks, each command's word as
30_encoding.md R134 writes it decodes to the command, small vectors of 95_test_vectors.md, and for each
obligation with hypotheses a state that meets them. -/

namespace Sys2Proof.Tests

open Sys2Proof Sys2Proof.Machine

/-! ### A small block -/

/-- The test table of 95_test_vectors.md: four samples, two tables; the window at 0x400. -/
def benchParams : Config.Params :=
  { baseAddr := 0x400, tableSize := 4, wtData := [[0, 16384, 0, -16384], [16384, 16384, -16384, -16384]],
    outBits := 8, neutral := 128 }

/-- Two ADSR envelopes, one unit of every other kind. -/
def benchCounts : Config.Counts :=
  { pacc := 1, osc := 1, onepole := 1, svf := 1, biquad := 1, dc := 1, adsr := 2, ar := 1, lfo := 1 }

/-- The block after reset. -/
def bench : State := State.resetWith benchParams benchCounts

/-- `bench` with operands in both banks. -/
def benchOp (v0 v1 v2 : U32) : State :=
  { bench with fg := { Bank.reset with op0 := v0, op1 := v1, op2 := v2 }
               isr := { Bank.reset with op0 := v0, op1 := v1, op2 := v2 } }

/-- A running engine: 22050 Hz, period 45, pin 9. -/
def running (phase : EngPhase) (cb : U32) (s : State) : State :=
  { s with eng := { phase := phase, cb := cb, rate := 22050#32, period := 45#32, pin := 9#32 } }

/-- `s` with the agents' next answers in store. -/
def answering (answers : List Bool) (s : State) : State := { s with env := { s.env with answers := answers } }

/-- `s` with the next inputs. -/
def facing (inputs : List Input) (s : State) : State := { s with env := { s.env with inputs := inputs } }

/-- `s` with what becomes of the next turns. -/
def taking (turns : List Turn) (s : State) : State := { s with env := { s.env with turns := turns } }

/-- The next state of an outcome; the block after reset where there is none. -/
def after : Host.Outcome State Fault Refusal → State
  | .next s => s
  | .fault _ => bench
  | .refused _ => bench

/-- `RES0` and `RES1` of the foreground bank after a command. -/
def results (i : Instr) (s : State) : U32 × U32 := ((after (exec i s)).fg.res0, (after (exec i s)).fg.res1)

/-! ### Well-formedness: each check refuses an ill-formed command (30_encoding.md R131, R133) -/

theorem test_wellFormed_refuses_absent_unit : (Instr.adsrNoteOn 2#8).wellFormed bench.limits = false := by decide

theorem test_wellFormed_refuses_illegal_selector :
    (Instr.oscSetTable 0#8 2#8).wellFormed bench.limits = false ∧
    (Instr.bqSetType 0#8 3#8).wellFormed bench.limits = false ∧
    (Instr.lfoSetShape 0#8 6#8).wellFormed bench.limits = false := by decide

theorem test_wellFormed_accepts :
    (Instr.adsrNoteOn 1#8).wellFormed bench.limits = true ∧
    (Instr.lfoSetShape 0#8 5#8).wellFormed bench.limits = true ∧ Instr.engReturn.wellFormed bench.limits = true := by
  decide

/-! ### Decoding: one word for each row of 30_encoding.md R134 -/

theorem test_decode_engine :
    decode 0x00000000#32 = .ok .nop ∧
    decode 0x01000000#32 = .ok .engBegin ∧
    decode 0x02000000#32 = .ok .engEnd ∧
    decode 0x03000000#32 = .ok .engSetCallback ∧
    decode 0x04000000#32 = .ok .engReturn := by
  decide

theorem test_decode_pacc :
    decode 0x10860000#32 = .ok (.paccSetFreq 0x86#8) ∧
    decode 0x11870000#32 = .ok (.paccSetSr 0x87#8) ∧
    decode 0x12880000#32 = .ok (.paccSetPhase 0x88#8) ∧
    decode 0x13890000#32 = .ok (.paccTick 0x89#8) ∧
    decode 0x148A0000#32 = .ok (.paccGet 0x8A#8) := by
  decide

theorem test_decode_osc :
    decode 0x208B0000#32 = .ok (.oscSetFreq 0x8B#8) ∧
    decode 0x218C0000#32 = .ok (.oscSetSr 0x8C#8) ∧
    decode 0x228D0000#32 = .ok (.oscSetPhase 0x8D#8) ∧
    decode 0x238E0000#32 = .ok (.oscSetAmp 0x8E#8) ∧
    decode 0x248FCB00#32 = .ok (.oscSetTable 0x8F#8 0xCB#8) ∧
    decode 0x25900000#32 = .ok (.oscProcess 0x90#8) ∧
    decode 0x26910000#32 = .ok (.oscGet 0x91#8) := by
  decide

theorem test_decode_onepole :
    decode 0x30920000#32 = .ok (.onepoleSetCutoff 0x92#8) ∧
    decode 0x31930000#32 = .ok (.onepoleSetSr 0x93#8) ∧
    decode 0x3294E400#32 = .ok (.onepoleSetMode 0x94#8 0xE4#8) ∧
    decode 0x33950000#32 = .ok (.onepoleProcess 0x95#8) ∧
    decode 0x34960000#32 = .ok (.onepoleReset 0x96#8) ∧
    decode 0x35970000#32 = .ok (.onepoleGet 0x97#8) := by
  decide

theorem test_decode_svf :
    decode 0x40980000#32 = .ok (.svfSetCutoff 0x98#8) ∧
    decode 0x41990000#32 = .ok (.svfSetRes 0x99#8) ∧
    decode 0x429A0000#32 = .ok (.svfSetSr 0x9A#8) ∧
    decode 0x439B0000#32 = .ok (.svfProcess 0x9B#8) ∧
    decode 0x449C0000#32 = .ok (.svfReset 0x9C#8) ∧
    decode 0x459D0000#32 = .ok (.svfGet 0x9D#8) := by
  decide

theorem test_decode_biquad :
    decode 0x509E0000#32 = .ok (.bqSetCutoff 0x9E#8) ∧
    decode 0x519F0000#32 = .ok (.bqSetSr 0x9F#8) ∧
    decode 0x52A0E000#32 = .ok (.bqSetType 0xA0#8 0xE0#8) ∧
    decode 0x53A10000#32 = .ok (.bqSetCoeffs 0xA1#8) ∧
    decode 0x54A20000#32 = .ok (.bqProcess 0xA2#8) ∧
    decode 0x55A30000#32 = .ok (.bqReset 0xA3#8) ∧
    decode 0x56A4F400#32 = .ok (.bqGet 0xA4#8 0xF4#8) := by
  decide

theorem test_decode_dc :
    decode 0x60A50000#32 = .ok (.dcProcess 0xA5#8) ∧
    decode 0x61A60000#32 = .ok (.dcReset 0xA6#8) ∧
    decode 0x62A70000#32 = .ok (.dcGet 0xA7#8) := by
  decide

theorem test_decode_adsr :
    decode 0x70A80000#32 = .ok (.adsrSetAttack 0xA8#8) ∧
    decode 0x71A90000#32 = .ok (.adsrSetDecay 0xA9#8) ∧
    decode 0x72AA0000#32 = .ok (.adsrSetSustain 0xAA#8) ∧
    decode 0x73AB0000#32 = .ok (.adsrSetRelease 0xAB#8) ∧
    decode 0x74AC0000#32 = .ok (.adsrSetSr 0xAC#8) ∧
    decode 0x75AD0000#32 = .ok (.adsrNoteOn 0xAD#8) ∧
    decode 0x76AE0000#32 = .ok (.adsrNoteOff 0xAE#8) ∧
    decode 0x77AF0000#32 = .ok (.adsrProcess 0xAF#8) ∧
    decode 0x78B0F000#32 = .ok (.adsrGet 0xB0#8 0xF0#8) := by
  decide

theorem test_decode_ar :
    decode 0x80B10000#32 = .ok (.arSetAttack 0xB1#8) ∧
    decode 0x81B20000#32 = .ok (.arSetRelease 0xB2#8) ∧
    decode 0x82B30000#32 = .ok (.arSetSr 0xB3#8) ∧
    decode 0x83B40000#32 = .ok (.arTrigger 0xB4#8) ∧
    decode 0x84B50000#32 = .ok (.arProcess 0xB5#8) ∧
    decode 0x85B60000#32 = .ok (.arGet 0xB6#8) := by
  decide

theorem test_decode_lfo :
    decode 0x90B70000#32 = .ok (.lfoSetFreq 0xB7#8) ∧
    decode 0x91B80000#32 = .ok (.lfoSetSr 0xB8#8) ∧
    decode 0x92B9DD00#32 = .ok (.lfoSetShape 0xB9#8 0xDD#8) ∧
    decode 0x93BA0000#32 = .ok (.lfoSetSeed 0xBA#8) ∧
    decode 0x94BB0000#32 = .ok (.lfoProcess 0xBB#8) ∧
    decode 0x95BC0000#32 = .ok (.lfoGet 0xBC#8) := by
  decide

theorem test_decode_wt :
    decode 0xA000F100#32 = .ok (.wtLookup 0xF1#8) := by
  decide

/-- 95_test_vectors.md 2.1: words whose opcode, reserved bits or UNIT the decoder itself refuses. -/
theorem test_decode_refuses :
    decode 0x05FF0001#32 = .error .illegalOpcode ∧ decode 0xFF000000#32 = .error .illegalOpcode ∧
    decode 0x02010001#32 = .error .reservedBits ∧ decode 0x75010100#32 = .error .reservedBits ∧
    decode 0x00010000#32 = .error .badUnit ∧ decode 0xA0010000#32 = .error .badUnit := by decide

/-! ### Numeric primitives (95_test_vectors.md 2.2) -/

theorem test_clampf :
    clampf 0x7FC00001#32 zeroF32 oneF32 = zeroF32 ∧ clampf 0x80000000#32 zeroF32 oneF32 = 0x80000000#32 ∧
    clampf 0x7F800000#32 Config.cutoffMinHz 0x462C4400#32 = 0x462C4400#32 := by decide +kernel

theorem test_maxf_minf_nan :
    maxf 0x7FC00000#32 0x33800000#32 = 0x33800000#32 ∧ minf 0xFFC00000#32 oneF32 = oneF32 := by decide +kernel

theorem test_frac :
    fracF32 0x40700000#32 = 0x3F400000#32 ∧ fracF64 0xBFD0000000000000#64 = 0x3FE8000000000000#64 ∧
    fracF32 0xB0800000#32 = oneF32 := by decide +kernel

theorem test_nan_is_canonical : mulF32 zeroF32 0x7F800000#32 = 0x7FC00000#32 := by decide +kernel

theorem test_i32toF32 :
    mulF32 (i32toF32 0x7FFFFFFF#32) twoPowNeg31F32 = oneF32 ∧
    mulF32 (i32toF32 0x80000000#32) twoPowNeg31F32 = negOneF32 := by decide +kernel

/-! ### Phase accumulator, oscillator, lookup (95_test_vectors.md 2.3) -/

/-- The accumulator after a command. -/
def accAfter (i : Instr) (s : State) : Option PaccState := (after (exec i s)).units.pacc[0]?

/-- `bench` with this accumulator in `pacc[0]` and in `osc[0]`. -/
def withAcc (a : PaccState) (s : State) : State :=
  { s with units := { s.units with pacc := [a], osc := [{ OscState.reset with acc := a }] } }

theorem test_pacc_set_freq :
    (accAfter (.paccSetFreq 0) (benchOp 0x43DC0000#32 0 0)).map PaccState.inc = some 0x3F946EFDCB4A6B82#64 := by
  decide +kernel

theorem test_pacc_set_freq_above_nyquist :
    (accAfter (.paccSetFreq 0) (benchOp 0x469C4000#32 0 0)).map (fun a => (a.freq, a.inc)) =
      some (0x462C4400#32, 0x3FE0000000000000#64) := by decide +kernel

theorem test_pacc_set_sr :
    (accAfter (.paccSetSr 0)
      (withAcc { PaccState.reset with freq := 0x462C4400#32 } (benchOp 0x447A0000#32 0 0))).map
        (fun a => (a.freq, a.sr, a.inc)) = some (0x43FA0000#32, 0x447A0000#32, 0x3FE0000000000000#64) := by
  decide +kernel

theorem test_pacc_set_phase :
    (accAfter (.paccSetPhase 0) (benchOp 0 0xBFD00000#32 0)).map PaccState.phase =
      some 0x3FE8000000000000#64 := by decide +kernel

theorem test_pacc_set_phase_rounds_to_one :
    (accAfter (.paccSetPhase 0) (benchOp 0 0xBC300000#32 0)).map PaccState.phase = some 0 := by decide +kernel

theorem test_pacc_tick :
    results (.paccTick 0) (withAcc { PaccState.reset with inc := 0x3F946EFDCB4A6B82#64 } bench) =
      (0x3CA377EE#32, 0) := by decide +kernel

theorem test_pacc_tick_wraps :
    (accAfter (.paccTick 0)
      (withAcc { PaccState.reset with phase := 0x3FE8000000000000#64, inc := 0x3FD0000000000000#64 } bench)).map
        PaccState.phase = some 0 := by decide +kernel

theorem test_pacc_get : results (.paccGet 0) (withAcc { PaccState.reset with phase := 0x3FE8000012345678#64 } bench) =
    (0x12345678#32, 0x3FE80000#32) := by decide +kernel

/-- `bench` with oscillator 0 at 125 Hz of 1000 Hz and this phase. -/
def benchOsc (phase : F64) : State :=
  withAcc { phase := phase, inc := 0x3FC0000000000000#64, freq := 0x42FA0000#32, sr := 0x447A0000#32 } bench

theorem test_osc_process : results (.oscProcess 0) (benchOsc 0) = (0x3E800000#32, 0x3E000000#32) := by
  decide +kernel

theorem test_osc_process_interpolates_to_entry_0 :
    results (.oscProcess 0) (benchOsc 0x3FE8000000000000#64) = (0xBE800000#32, 0x3F600000#32) := by
  decide +kernel

theorem test_osc_set_amp :
    ((after (exec (.oscSetAmp 0) (benchOp 0x40000000#32 0 0))).units.osc[0]?).map OscState.amp = some oneF32 := by
  decide +kernel

theorem test_osc_set_table_keeps_phase :
    ((after (exec (.oscSetTable 0 1) (benchOsc 0x3FE0000000000000#64))).units.osc[0]?).map
      (fun o => (o.table, o.acc.phase)) = some (1, 0x3FE0000000000000#64) := by decide +kernel

theorem test_wt_lookup_negative_index :
    results (.wtLookup 0) (benchOp 0xBF000000#32 0 0) = (0xBE800000#32, 0) := by decide +kernel

theorem test_wt_lookup_infinite_index :
    results (.wtLookup 0) (benchOp 0xFF800000#32 0 0) = (0, 0) := by decide +kernel

/-! ### Filters (95_test_vectors.md 2.4 to 2.6, with the coefficients those tables give) -/

/-- `bench` with the one-pole of the table, in a mode. -/
def benchOnepole (mode : OnePoleMode) (lp x : F32) : State :=
  let s := benchOp x 0 0
  { s with units := { s.units with
      onepole := [{ OnePoleState.reset with alpha := 0x3E7DE674#32, mode := mode, lp := lp }] } }

theorem test_onepole_process :
    results (.onepoleProcess 0) (benchOnepole .lowPass 0 oneF32) = (0x3E7DE674#32, 0x3E7DE674#32) := by
  decide +kernel

theorem test_onepole_process_high_pass :
    results (.onepoleProcess 0) (benchOnepole .highPass 0x3E7DE674#32 0) = (0xBE3EF220#32, 0x3E3EF220#32) := by
  decide +kernel

theorem test_onepole_set_cutoff_floor :
    ((after (exec (.onepoleSetCutoff 0) (benchOp 0x7FC00000#32 0 0))).units.onepole[0]?).map
      OnePoleState.cutoff = some 0x41A00000#32 := by decide +kernel

theorem test_onepole_set_sr_clamps_cutoff :
    ((after (exec (.onepoleSetSr 0) (benchOp 0x447A0000#32 0 0))).units.onepole[0]?).map
      OnePoleState.cutoff = some 0x43FA0000#32 := by decide +kernel

/-- `bench` with the state-variable filter of the table after one impulse. -/
def benchSvf (x : F32) : State :=
  let s := benchOp x 0 0
  { s with units := { s.units with
      svf := [{ SvfState.reset with f := 0x3E9166F5#32, q := 0x3FB504F3#32, band := 0x3E9166F5#32 }] } }

theorem test_svf_process : results (.svfProcess 0) (benchSvf 0) = (0x3DA52B96#32, 0xBEF6EC1C#32) := by
  decide +kernel

theorem test_svf_process_band_and_notch :
    ((after (exec (.svfProcess 0) (benchSvf 0))).units.svf[0]?).map (fun v => (v.band, v.notch)) =
      some (0x3E168EE0#32, 0xBECDA136#32) := by decide +kernel

theorem test_svf_set_res :
    ((after (exec (.svfSetRes 0) (benchOp 0x41A00000#32 0 0))).units.svf[0]?).map SvfState.q =
      some 0x3D4CCCCD#32 := by decide +kernel

/-- `bench` with the low-pass coefficients of the table and a history. -/
def benchBiquad (x1 y1 x : F32) : State :=
  let s := benchOp x 0 0
  { s with units := { s.units with
      biquad := [{ BiquadState.reset with
        b0 := 0x3C89C84B#32, b1 := 0x3D09C84B#32, b2 := 0x3C89C84B#32, a1 := 0xBFCCF099#32,
        a2 := 0x3F2B1A3B#32, x1 := x1, y1 := y1 }] } }

theorem test_bq_process : results (.bqProcess 0) (benchBiquad 0 0 oneF32) = (0x3C89C84B#32, 0) := by
  decide +kernel

theorem test_bq_process_history :
    results (.bqProcess 0) (benchBiquad oneF32 0x3C89C84B#32 0) = (0x3D781565#32, 0) := by decide +kernel

theorem test_bq_set_coeffs_then_direct :
    ((after (exec (.bqSetCoeffs 0) (benchOp oneF32 0 0))).units.biquad[0]?).map (fun b => (b.type, b.b0, b.b1)) =
      some (.direct, oneF32, 0) := by decide +kernel

theorem test_dc_process :
    results (.dcProcess 0)
      { benchOp oneF32 0 0 with units := { bench.units with dc := [{ x1 := oneF32, y1 := oneF32 }] } } =
      (0x3F7EB852#32, 0) := by decide +kernel

/-! ### Envelopes and LFO (95_test_vectors.md 2.7, 2.8) -/

/-- The ADSR of the sequence: attackInc 0.5, decayInc 0.125, sustain 0.5, releaseInc 0.25, 1000 Hz. -/
def seqAdsr (stage : AdsrStage) (level target inc : F32) : AdsrState :=
  { AdsrState.reset with
    stage := stage, level := level, target := target, inc := inc, sr := 0x447A0000#32,
    attackInc := 0x3F000000#32, decayInc := 0x3E000000#32, releaseInc := 0x3E800000#32 }

/-- `bench` with this ADSR in unit 0. -/
def benchAdsr (e : AdsrState) : State := { bench with units := { bench.units with adsr := [e, AdsrState.reset] } }

theorem test_adsr_process_enters_decay :
    results (.adsrProcess 0) (benchAdsr (seqAdsr .attack halfF32 oneF32 halfF32)) = (oneF32, 2) := by decide +kernel

theorem test_adsr_process_enters_idle :
    results (.adsrProcess 0) (benchAdsr (seqAdsr .release 0x3E800000#32 0 0xBE800000#32)) = (0, 0) := by
  decide +kernel

theorem test_adsr_note_off_negates_release :
    ((after (exec (.adsrNoteOff 0) (benchAdsr (seqAdsr .attack halfF32 oneF32 halfF32)))).units.adsr[0]?).map
      (fun e => (e.stage, e.inc)) = some (.release, 0xBE800000#32) := by decide +kernel

theorem test_adsr_set_attack_floor :
    ((after (exec (.adsrSetAttack 0) (benchOp negOneF32 0 0))).units.adsr[0]?).map
      (fun e => (e.attack, e.attackInc)) = some (0x3A83126F#32, 0x3D39C277#32) := by decide +kernel

theorem test_adsr_set_sustain_one :
    ((after (exec (.adsrSetSustain 0) (benchOp 0x3FC00000#32 0 0))).units.adsr[0]?).map
      (fun e => (e.sustain, e.decayInc)) = some (oneF32, 0x33800000#32) := by decide +kernel

theorem test_adsr_set_sr :
    ((after (exec (.adsrSetSr 0) (benchOp 0x447A0000#32 0 0))).units.adsr[0]?).map
      (fun e => (e.attackInc, e.releaseInc)) = some (0x3DCCCCCD#32, 0x3BA3D70A#32) := by decide +kernel

theorem test_ar_process_peaks :
    results (.arProcess 0)
      { bench with units := { bench.units with ar := [{ ArState.reset with
          stage := .attack, level := halfF32, inc := halfF32, releaseInc := 0x3E800000#32 }] } } =
      (oneF32, 4) := by decide +kernel

theorem test_lfo_seed_zero_is_remapped :
    ((after (exec (.lfoSetSeed 0) (benchOp 0 0 0))).units.lfo[0]?).map LfoState.rng =
      some 0x92D68CA2#32 := by decide +kernel

/-- `bench` with LFO 0 in this shape, at 250 Hz of 1000 Hz. -/
def benchLfo (shape : LfoShape) (phase : F64) : State :=
  { bench with units := { bench.units with lfo := [{ LfoState.reset with
      shape := shape
      acc := { phase := phase, inc := 0x3FD0000000000000#64, freq := 0x437A0000#32, sr := 0x447A0000#32 } }] } }

theorem test_lfo_sample_hold_draws_on_wrap :
    results (.lfoProcess 0) (benchLfo .sampleHold 0x3FE8000000000000#64) = (0x3EAC7D36#32, 0) ∧
    results (.lfoProcess 0) (benchLfo .sampleHold 0) = (0, 0) := by decide +kernel

theorem test_lfo_triangle_and_square :
    results (.lfoProcess 0) (benchLfo .triangle 0x3FD0000000000000#64) = (oneF32, 0) ∧
    results (.lfoProcess 0) (benchLfo .square 0x3FD0000000000000#64) = (negOneF32, 0) := by decide +kernel

theorem test_xorshift_from_seed_1 :
    xorShift 1 = 0x00042021#32 ∧ xorShift 0x00042021#32 = 0x04080601#32 ∧
    randomValue 0x9DCCA8C5#32 = 0xBF4466AE#32 := by decide +kernel

/-! ### Engine (95_test_vectors.md 2.9) -/

theorem test_quantize :
    quantize 8 0xBF000000#32 = 64 ∧ quantize 16 0x80000001#32 = 32767 ∧ quantize 1 0x3F7D70A4#32 = 1 ∧
    quantize 8 0x7FC00000#32 = 128 ∧ quantize 16 0x3F7FFFFF#32 = 65535 ∧ quantize 8 0xFF800000#32 = 0 := by
  decide +kernel

/-- Trace E1: begin that succeeds. -/
theorem test_eng_begin_events :
    ((after (exec .engBegin (answering [true, true] (benchOp 22050 9 0)))).env.events,
      (after (exec .engBegin (answering [true, true] (benchOp 22050 9 0)))).eng.period) =
      ([.configure 9 22050 true, .armOnce 45 true], 45#32) := by decide +kernel

/-- Trace E1: an arm that is refused. -/
theorem test_eng_begin_refused_arm :
    ((after (exec .engBegin (answering [true, false] (benchOp 22050 9 0)))).env.events,
      (after (exec .engBegin (answering [true, false] (benchOp 22050 9 0)))).status) =
      ([.configure 9 22050 true, .armOnce 45 false, .write 128], 0x00040000#32) := by decide +kernel

/-- Trace E2: a rejected ENG_END in the handler, from STATUS 0x0000000E. -/
theorem test_eng_end_in_isr :
    (after (exec .engEnd (running .inHandler 2 bench))).status = 0x0001050E#32 := by decide +kernel

/-- Trace E2: end. -/
theorem test_eng_end_events :
    (after (exec .engEnd (running .armed 2 bench))).env.events = [.cancel, .write 128] := by decide +kernel

/-- The example of 44_engine.md R407. -/
theorem test_eng_return :
    ((after (exec .engReturn (answering [true] (running .inHandler 1 (benchOp halfF32 0 0))))).env.events,
      (after (exec .engReturn (answering [true] (running .inHandler 1 (benchOp halfF32 0 0))))).eng.phase) =
      ([.write 192, .armOnce 45 true], .armed) := by decide +kernel

/-- Trace E3: a failed re-arm. -/
theorem test_eng_return_rearm_fails :
    (after (exec .engReturn (answering [false] (running .inHandler 1 (benchOp negOneF32 0 0))))).env.events =
      [.write 0, .armOnce 45 false, .write 128] := by decide +kernel

/-- Trace E1: a silent tick whose re-arm fails. -/
theorem test_expire_silence_fails :
    (after (step (facing [.expire] (answering [false] (running .armed 0 bench))))).status = 0x00020000#32 := by
  decide +kernel

/-- Trace E2: handler entry. -/
theorem test_expire_enters_handler :
    (after (step (facing [.expire] (running .armed 2 bench)))).status = 0x0000000E#32 := by decide +kernel

/-! ### The command port and the window -/

/-- 95_test_vectors.md 2.1: what STATUS shows after a rejected word. -/
theorem test_step_rejects :
    (after (step (bench.withFetchWord 32 0x75020000))).status = 0x00010200#32 ∧
    (after (step (bench.withFetchWord 32 0x92000600))).status = 0x00010400#32 ∧
    (after (step (bench.withFetchWord 32 0x04000000))).status = 0x00010500#32 := by decide +kernel

theorem test_configuration_registers :
    bench.readReg .cfgCounts0 = 0x01010101#32 ∧ bench.readReg .cfgCounts1 = 0x01020101#32 ∧
    bench.readReg .cfgCounts2 = 0x00080201#32 := by decide +kernel

/-- 20_memory.md R102: the window as bytes, little-endian. -/
theorem test_window_bytes :
    bench.windowByte 0 = 0x31#8 ∧ bench.windowByte 3 = 0x4B#8 := by decide +kernel

/-- The reset state of the default block runs a command (00_scope.md R8). -/
theorem test_reset_runs_pacc_get :
    (after (step (State.reset.withFetchWord 32 0x14010000))).fg.res5 = 0x46AC4400#32 := by decide +kernel

/-! ### Witnesses: for each obligation with hypotheses, operands and a state that meet them -/

theorem witness_ExampleWordsDecodeAsWritten :
    bench.units.adsr.length = 2 ∧ bench.units.lfo.length ≤ 255 ∧ (running .inHandler 1 bench).inIsr = true := by
  decide

theorem witness_EncodeOfDecodeIsTheWord : decode 0x92010400#32 = .ok (.lfoSetShape 1 4) := by decide

theorem witness_IllegalAndReservedWordsAreRejected :
    IllegalOpcode (wordOpc 0x05FF0001#32).toNat ∧ IllegalOpcode (wordOpc 0xFF000000#32).toNat ∧
    ¬ IllegalOpcode (wordOpc 0x04000001#32).toNat ∧ wordRsv 0x04000001#32 ≠ 0#8 ∧
    ¬ IllegalOpcode (wordOpc 0x75000100#32).toNat ∧ wordSel 0x75000100#32 ≠ 0#8 ∧
    selectorBound bench.cfg.nTables (wordOpc 0x75000100#32).toNat = none :=
  ⟨by decide, by decide, by decide, by decide, by decide, by decide, by decide⟩

/-- The last branch of the chain of checks: a word that passes them all. -/
theorem witness_CommandPortChecksInOrder :
    ¬ IllegalOpcode (wordOpc 0x24000100#32).toNat ∧ wordRsv 0x24000100#32 = 0#8 ∧
    (wordUnit 0x24000100#32).toNat < kindCount bench.units.counts ((wordOpc 0x24000100#32).toNat / 16) ∧
    selectorBound bench.cfg.nTables (wordOpc 0x24000100#32).toNat = some 2 ∧
    (wordSel 0x24000100#32).toNat = 1 ∧ contextIllegal bench.inIsr (wordOpc 0x24000100#32).toNat = false := by
  decide

theorem witness_AcceptedCommandsRunWithoutError :
    (Instr.adsrNoteOn 1).wellFormed bench.limits = true ∧
    contextIllegal bench.inIsr (wordOpc (encode (.adsrNoteOn 1))).toNat = false ∧
    (Instr.engReturn).wellFormed bench.limits = true ∧
    contextIllegal (running .inHandler 1 bench).inIsr (wordOpc (encode .engReturn)).toNat = false := by decide

/-- The host's write of `NOP` to CMD. -/
def writeNop : BusAccess := { addr := 0x418, width := .bits32, write := some 0 }

/-- `bench` facing that write, in a turn of each kind of arrival; and a word of each outcome of the decoder. -/
theorem witness_StepRunsTheDecodedCommand :
    (∀ g ∈ [Arrival.none, .early, .late],
      (taking [.work g] (facing [.bus writeNop] bench)).env.turn = .work g ∧
      (taking [.work g] (facing [.bus writeNop] bench)).expiryPending = false ∧
      (taking [.work g] (facing [.bus writeNop] bench)).env.inputs = .bus writeNop :: []) ∧
    writeNop = { addr := bench.cfg.baseAddr + 0x18, width := .bits32, write := some 0 } ∧
    decode 0#32 = .ok .nop ∧ decode 0x05FF0001#32 = .error .illegalOpcode ∧
    decodeTableWord 32 0x14010000 = some (.paccGet 1) := by decide

/-- Both sides of the refusal: a 16-bit access at the last byte of the window, and a 32-bit one at its start. -/
theorem witness_OnlyBusErrorsAreRefused :
    step (facing [.bus { addr := 0x4FF, width := .bits16, write := none }] bench) = .refused .busError ∧
    step (facing [.bus { addr := 0x401, width := .bits32, write := none }] bench) = .refused .busError ∧
    ∃ t, step (facing [.bus { addr := 0x400, width := .bits32, write := none }] bench) = .next t :=
  ⟨rfl, rfl, _, rfl⟩

/-- One command that runs, for the statements about every command that gives a next state. -/
theorem witness_a_command_runs :
    ∃ t, exec (.paccSetPhase 0) bench = .next t ∧ bench.inIsr = false ∧
      (running .inHandler 1 bench).inIsr = true ∧ Instr.isEngine (.paccSetPhase 0) = false ∧
      Instr.isEngine .engEnd = true ∧ 1 = (wordOpc (encode (.paccSetPhase 0))).toNat / 16 ∧
      0 = (wordUnit (encode (.paccSetPhase 0))).toNat :=
  ⟨_, rfl, rfl, rfl, rfl, rfl, rfl, rfl⟩

/-- The lowest and the highest byte of a register, and a register that reads other than 0. -/
theorem witness_StatusShowsItsFields :
    bench.Reads 0x00 0x4B4F4531#32 ∧ (running .inHandler 2 bench).Reads 0x14 0x0000000E#32 ∧
    0x14 % 4 = 0 ∧ 0x14 < 0x100 ∧ (running .inHandler 2 bench).windowByte (0x14 + 0) = 0x0E#8 ∧
    bench.windowByte (0x00 + 3) = 0x4B#8 :=
  ⟨rfl, rfl, by decide, by decide, by decide +kernel, by decide +kernel⟩

theorem witness_ReservedOffsetsReadZero :
    ∀ off ∈ [0x2C, 0x44, 0x4C, 0x70, 0xFC], off < 0x100 ∧ off % 4 = 0 ∧
      (off = 0x2C ∨ (0x44 ≤ off ∧ off ≤ 0x4C) ∨ 0x70 ≤ off) := by decide

theorem witness_ReadOnlyRegisters : bench.cfg.Valid ∧ bench.units.counts.Valid := by decide

theorem witness_OperandAndResultRegisters :
    bench.eng.phase ≠ .inHandler ∧ (running .inHandler 1 bench).eng.phase = .inHandler := by decide

theorem witness_ReadsHaveNoSideEffect :
    (∃ t, busAccess { addr := 0x4FC, width := .bits32, write := none } bench = .next t) ∧
    0x3FF < bench.cfg.baseAddr ∧ bench.cfg.baseAddr + 0xFF < 0x500 :=
  ⟨⟨_, rfl⟩, by decide, by decide⟩

/-- Magnitudes up to the infinity, finite operands at both ends of the range, and a divisor that is not 0. -/
theorem witness_RoundingIsNearestEven :
    (0 < 3 ∧ 0 ≤ fmt32.infMag ∧ fmt32.infMag ≤ fmt32.infMag) ∧ (0 < 3 ∧ fmt64.infMag ≤ fmt64.infMag) ∧
    (isFinite32 0x80000000#32 = true ∧ isFinite32 0x7F7FFFFF#32 = true ∧ (unpack32 0x80000001#32).units fmt32 ≠ 0) ∧
    (isFinite64 0#64 = true ∧ isFinite64 0xFFEFFFFFFFFFFFFF#64 = true ∧ (unpack64 oneF64).units fmt64 ≠ 0) := by
  decide +kernel

theorem witness_NanResultsAreCanonical :
    isNaN32 (mulF32 zeroF32 0x7F800000#32) = true ∧ isNaN32 0xFFC12345#32 = true ∧
    (unpack64 (divF64 zeroF64 zeroF64)).isNaN fmt64 = true ∧
    (unpack64 0xFFF8000000000001#64).isNaN fmt64 = true := by decide +kernel

theorem witness_ClampLandsBetweenItsBounds :
    leF32 zeroF32 oneF32 = true ∧ isNaN32 0x7FC00000#32 = true ∧ ltF32 0x80000001#32 zeroF32 = true ∧
    ltF32 oneF32 0x3F800001#32 = true ∧ leF32 zeroF32 0x80000000#32 = true ∧
    leF32 0x80000000#32 oneF32 = true := by decide +kernel

/-- The ends of the range and the values next to them. -/
theorem witness_QuantizeIsTheExactFloor :
    isNaN32 0x7FC00000#32 = true ∧ leF32 negOneF32 negOneF32 = true ∧ leF32 oneF32 oneF32 = true ∧
    leF32 negOneF32 0xBF7FFFFF#32 = true ∧ ltF32 0x3F7FFFFF#32 oneF32 = true ∧
    leF32 negOneF32 0x3F7FFFFF#32 = true ∧ ltF32 negOneF32 oneF32 = true ∧
    quantize 8 negOneF32 = 0 ∧ quantize 8 oneF32 = 255 := by decide +kernel

theorem witness_PeriodIsRoundedToNearest :
    1 ≤ (1#32).toNat ∧ (1#32).toNat ≤ 2000000 ∧ 1 ≤ (2000000#32).toNat ∧ (2000000#32).toNat ≤ 2000000 ∧
    (period 2000000#32).toNat = 1 := by decide

theorem witness_NopAndSetCallback : (running .armed 1 bench).eng.phase ≠ .inHandler := by decide

theorem witness_EngBeginSucceeds :
    22050#32 = (answering [true, true] (benchOp 22050 9 1)).fg.op 0 ∧
    22050#32 ≠ 0#32 ∧ (22050#32).toNat ≤ 2000000 ∧ (2000000#32).toNat ≤ 2000000 ∧
    (answering [true, true] (benchOp 22050 9 1)).env.answers = true :: true :: [] ∧
    (answering [true, true] (benchOp 22050 9 1)).eng.phase = .stopped ∧
    (running .armed 1 (answering [true, true] (benchOp 22050 9 1))).eng.phase = .armed := by decide

theorem witness_EngBeginFails :
    ((benchOp 0 9 1).eng.phase = .stopped ∧ (benchOp 0 9 1).fg.op 0 = 0#32) ∧
    2000000 < ((benchOp 2000001 9 1).fg.op 0).toNat ∧
    ((benchOp 2000000 9 1).fg.op 0 ≠ 0#32 ∧ ((benchOp 2000000 9 1).fg.op 0).toNat ≤ 2000000) ∧
    (answering [false] bench).env.answers = false :: [] ∧
    (answering [true, false] bench).env.answers = true :: false :: [] ∧
    ∃ t, (running .armed 1 bench).eng.phase = .armed ∧ exec .engEnd (running .armed 1 bench) = .next t :=
  ⟨by decide, by decide, by decide, rfl, rfl, _, rfl, rfl⟩

theorem witness_EngEndStopsTheEngine :
    (running .armed 1 bench).eng.phase = .armed ∧ bench.eng.phase = .stopped := by decide

theorem witness_EngReturnWritesAndRearms :
    (running .inHandler 1 bench).eng.phase = .inHandler ∧
    128 = quantize (running .inHandler 1 bench).cfg.outBits ((running .inHandler 1 bench).isr.op 0) ∧
    (answering [true] (running .inHandler 1 bench)).env.answers = true :: [] ∧
    (answering [false] (running .inHandler 1 bench)).env.answers = false :: [] := by decide +kernel

/-- A latched expiry and one between steps, a turn of each kind of arrival, in the three phases, with and
without a callback. -/
theorem witness_ExpiryHandlingStep :
    (∀ g ∈ [Arrival.none, .early, .late],
      (taking [.work g] { bench with expiryPending := true }).env.turn = .work g ∧
      (taking [.work g] { bench with expiryPending := true }).expiryPending = true ∧
      (taking [.work g] (facing [.expire] bench)).env.turn = .work g ∧
      (taking [.work g] (facing [.expire] bench)).expiryPending = false ∧
      (taking [.work g] (facing [.expire] bench)).env.inputs = .expire :: []) ∧
    bench.eng.phase ≠ .armed ∧ (running .armed 1 bench).eng.phase = .armed ∧
    (running .armed 1 bench).eng.cb ≠ 0#32 ∧ (running .armed 0 bench).eng.cb = 0#32 ∧
    (answering [true] (running .armed 0 bench)).env.answers = true :: [] ∧
    (answering [false] (running .armed 0 bench)).env.answers = false :: [] := by decide

/-- All three arrivals in a bus access, the early one both ways: with a NOP it stays pending, with an ENG_END it
is dropped. And the silent tick of a latched expiry, with an expiry in it and with none. -/
theorem witness_AnExpiryDuringAStepIsLatched :
    (after (step (facing [.bus writeNop] bench))).expiryPending = false ∧
    (after (step (taking [.work .late] (facing [.bus writeNop] bench)))).expiryPending = true ∧
    (after (step (taking [.work .early] (facing [.bus writeNop] bench)))).expiryPending = true ∧
    (after (step (taking [.work .early] (facing [.bus { writeNop with write := some 0x02000000 }]
      (running .armed 1 bench))))).expiryPending = false ∧
    (∀ g ∈ [Arrival.none, .early, .late],
      (after (step (taking [.work g] (answering [true]
        { running .armed 0 bench with expiryPending := true })))).expiryPending = decide (g ≠ .none)) := by
  decide +kernel

/-- A step of each transition: out of STOPPED, out of ARMED and out of IN_HANDLER. -/
theorem witness_EngineTransitions :
    (after (step ((answering [true, true] (benchOp 22050 9 1)).withFetchWord 32 0x01000000))).eng.phase = .armed ∧
    (after (step ((running .armed 1 bench).withFetchWord 32 0x02000000))).eng.phase = .stopped ∧
    (after (step (facing [.expire] (running .armed 1 bench)))).eng.phase = .inHandler ∧
    (after (step ((answering [true] (running .inHandler 1 bench)).withFetchWord 32 0x04000000))).eng.phase =
      .armed ∧
    (after (step (taking [.reset] (running .inHandler 1 bench)))).eng.phase = .stopped := by decide +kernel

/-- A reset with an expiry latched and an access in front: the block is reset, and no agent is called. -/
theorem witness_ResetInputResetsTheBlock :
    (taking [.reset] (facing [.bus writeNop] { running .armed 0 bench with expiryPending := true })).env.turn =
      .reset ∧
    (after (step (taking [.reset] { running .armed 0 bench with expiryPending := true }))).env.events = [] ∧
    (after (step (taking [.reset] { running .armed 0 bench with expiryPending := true }))).expiryPending =
      false := by decide +kernel

theorem witness_ResetMeetsTheInvariants :
    benchParams.Valid ∧ benchCounts.Valid ∧ bench = State.resetWith benchParams benchCounts :=
  ⟨by decide, by decide, rfl⟩

/-- The record of unit 0 of each kind in `bench`, for the statements about a unit command. -/
theorem witness_units_exist :
    bench.units.pacc[(0#8).toNat]? = some PaccState.reset ∧ bench.units.osc[(0#8).toNat]? = some OscState.reset ∧
    bench.units.onepole[(0#8).toNat]? = some OnePoleState.reset ∧
    bench.units.svf[(0#8).toNat]? = some SvfState.reset ∧
    bench.units.biquad[(0#8).toNat]? = some BiquadState.reset ∧
    bench.units.dc[(0#8).toNat]? = some DcState.reset ∧
    bench.units.adsr[(1#8).toNat]? = some AdsrState.reset ∧ bench.units.ar[(0#8).toNat]? = some ArState.reset ∧
    bench.units.lfo[(0#8).toNat]? = some LfoState.reset :=
  ⟨rfl, rfl, rfl, rfl, rfl, rfl, rfl, rfl, rfl⟩

theorem witness_OscillatorSetters : bench.units.osc[(0#8).toNat]? = some OscState.reset ∧
    (0#8).toNat < bench.cfg.nTables ∧ (1#8).toNat < bench.cfg.nTables := ⟨rfl, by decide, by decide⟩

theorem witness_OscillatorProcessAndLookup :
    bench.units.osc[(0#8).toNat]? = some OscState.reset ∧ (1#8).toNat < bench.cfg.nTables ∧
    isFinite32 0x7F800000#32 = false ∧ isFinite32 0x407FFFFF#32 = true ∧
    benchParams.Valid ∧ 1 < benchParams.nTables :=
  ⟨rfl, by decide, by decide, by decide, by decide, by decide⟩

theorem witness_SvfSettersAndReset :
    ∃ (f : F32 → F32 → F32) (q : F32 → F32), bench.units.svf[(0#8).toNat]? = some SvfState.reset ∧
      (∀ cutoff sr, f cutoff sr = clampf (mulF32 twoF32
        (Config.fnSin (divF32 (mulF32 Config.pi32 cutoff) sr))) Config.svfFMin Config.svfFMax) ∧
      ∀ res, q res = clampf (divF32 oneF32 res) Config.svfQMin Config.svfQMax :=
  ⟨_, _, rfl, fun _ _ => rfl, fun _ => rfl⟩

theorem witness_BiquadSettersAndReset :
    BiquadState.reset.type ≠ .direct ∧
    ((after (exec (.bqSetCoeffs 0) bench)).units.biquad[(0#8).toNat]?).map BiquadState.type = some .direct :=
  ⟨by decide, rfl⟩

/-- Envelopes in the stages the statements about notes and ticks name. -/
theorem witness_AdsrStages :
    (benchAdsr (seqAdsr .attack halfF32 oneF32 halfF32)).units.adsr[(0#8).toNat]? =
      some (seqAdsr .attack halfF32 oneF32 halfF32) ∧
    (seqAdsr .idle 0 0 0).stage = .idle ∧ (seqAdsr .sustain halfF32 halfF32 0).stage ≠ .idle := by decide

/-- An attack at level 0.5 and one at level 0, with the release increment at its floor and above it. -/
theorem witness_NoteOffDuringAttackFalls :
    (seqAdsr .attack halfF32 oneF32 halfF32).stage = .attack ∧ leF32 zeroF32 halfF32 = true ∧
    leF32 halfF32 oneF32 = true ∧ leF32 Config.envIncMin 0x3E800000#32 = true ∧
    leF32 Config.envIncMin Config.envIncMin = true ∧ ltF32 zeroF32 oneF32 = true ∧
    leF32 zeroF32 zeroF32 = true := by decide +kernel

theorem witness_AdsrSetters : ∃ inc : F32 → F32 → F32 → F32,
    bench.units.adsr[(1#8).toNat]? = some AdsrState.reset ∧
    ∀ dL time sr, inc dL time sr = maxf (divF32 dL (mulF32 time sr)) Config.envIncMin :=
  ⟨_, rfl, fun _ _ _ => rfl⟩

theorem witness_ArCommands : ∃ inc : F32 → F32 → F32,
    bench.units.ar[(0#8).toNat]? = some ArState.reset ∧
    ∀ time sr, inc time sr = maxf (divF32 oneF32 (mulF32 time sr)) Config.envIncMin :=
  ⟨_, rfl, fun _ _ => rfl⟩

/-- Both cases of the seed, and both cases of the wrap. -/
theorem witness_LfoCommands :
    (benchOp 0 0 0).opU32 0 = 0#32 ∧ (benchOp 1 0 0).opU32 0 ≠ 0#32 ∧
    (benchLfo .sampleHold 0).units.lfo[(0#8).toNat]?.map LfoState.shape = some .sampleHold ∧
    leF64 oneF64 (addF64 0x3FE8000000000000#64 0x3FD0000000000000#64) = true ∧
    leF64 oneF64 (addF64 0 0x3FD0000000000000#64) = false := by decide +kernel

/-! #### The invariants: states that meet them, and a step from each -/

theorem witness_EngineRecordInvariant :
    (running .armed 0 bench).eng.Ok ∧ (running .inHandler 1 bench).eng.Ok ∧ bench.eng.Ok ∧
    step (facing [] (running .armed 0 bench)) = .next (facing [] (running .armed 0 bench)) :=
  ⟨by decide +kernel, by decide +kernel, by decide +kernel, rfl⟩

theorem witness_AccumulatorInvariant : (benchOsc 0x3FEFFFFFFFFFFFFF#64).AccumulatorsOk ∧
    ∃ t, step ((benchOsc 0x3FEFFFFFFFFFFFFF#64).withFetchWord 32 0x25000000) = .next t :=
  ⟨by decide +kernel, _, rfl⟩

theorem witness_AdsrInvariant :
    (∀ e ∈ (benchAdsr (seqAdsr .attack halfF32 oneF32 halfF32)).units.adsr, e.Ok) ∧
    (∀ e ∈ (benchAdsr (seqAdsr .decay oneF32 oneF32 0xB3800000#32)).units.adsr, e.Ok) ∧
    ∃ t, step ((benchAdsr (seqAdsr .attack halfF32 oneF32 halfF32)).withFetchWord 32 0x77000000) = .next t :=
  ⟨by decide +kernel, by decide +kernel, _, rfl⟩

theorem witness_ArInvariant : (∀ e ∈ bench.units.ar, e.Ok) ∧
    ∃ t, step (bench.withFetchWord 32 0x84000000) = .next t := ⟨by decide +kernel, _, rfl⟩

theorem witness_ParameterInvariant :
    (benchSvf 0).OscillatorsOk ∧ (benchSvf 0).ParametersOk ∧
    ∃ t, step ((benchSvf 0).withFetchWord 32 0x41000000) = .next t :=
  ⟨by decide +kernel, by decide +kernel, _, rfl⟩

/-- Units as they are at reset; a direct biquad is shut out by no hypothesis. -/
theorem witness_DerivedFieldsMatchParameters :
    bench.DerivedOk ∧ ∃ t, step (bench.withFetchWord 32 0x53000000) = .next t := by
  refine ⟨⟨?_, ?_, ?_, ?_, ?_, ?_, ?_, ?_⟩, _, rfl⟩
  · decide +kernel
  · decide +kernel
  · decide +kernel
  · exact List.forall_mem_cons.2 ⟨rfl, by simp⟩
  · exact List.forall_mem_cons.2 ⟨rfl, by simp⟩
  · exact List.forall_mem_cons.2 ⟨fun _ => rfl, by simp⟩
  · exact List.forall_mem_cons.2 ⟨rfl, List.forall_mem_cons.2 ⟨rfl, by simp⟩⟩
  · exact List.forall_mem_cons.2 ⟨rfl, by simp⟩

theorem witness_HardwareNeverChanges : ∃ t, step (taking [.reset] bench) = .next t := ⟨_, rfl⟩

end Sys2Proof.Tests
end

section
/-! PROOF. The statements about arithmetic (00_scope.md R17 to R24) and about a step with a command in front. -/

namespace Sys2Proof.Machine

/-! ### Nearest magnitude (00_scope.md R18) -/

/-- A magnitude field written as a quantum and a number of quanta. The two ways to write a power of two (the last
number of one quantum, the first of the next) give the same value. -/
theorem magUnits_quanta {f : Fmt} {sh k : Nat} (hlo : sh = 0 ∨ 2 ^ f.mbits ≤ k)
    (hhi : k ≤ 2 ^ (f.mbits + 1)) : magUnits f (sh * 2 ^ f.mbits + k) = k * 2 ^ sh := by
  have hp : 0 < 2 ^ f.mbits := Nat.two_pow_pos _
  rw [pow_succ] at hhi
  rcases Nat.lt_or_ge k (2 ^ f.mbits) with hk | hk
  · obtain rfl : sh = 0 := by omega
    simp [magUnits_small hk]
  · obtain ⟨r, rfl⟩ := Nat.exists_eq_add_of_le hk
    rcases Nat.lt_or_ge r (2 ^ f.mbits) with hr | hr
    · have := magUnits_succ f sh r hr
      rw [show sh * 2 ^ f.mbits + (2 ^ f.mbits + r) = (sh + 1) * 2 ^ f.mbits + r by ring, this]
      ring
    · obtain rfl : r = 2 ^ f.mbits := by omega
      have := magUnits_succ f (sh + 1) 0 hp
      rw [show sh * 2 ^ f.mbits + (2 ^ f.mbits + 2 ^ f.mbits) = (sh + 1 + 1) * 2 ^ f.mbits + 0 by ring,
        this]
      ring

/-- What unbounded rounding chooses: `k` quanta of `2 ^ sh` units, `k` the nearest whole number, ties to even;
and the exact value reaches the least number of quanta there is of that size. -/
theorem roundMagFree_quanta (f : Fmt) {n d : Nat} (hd : 0 < d) :
    ∃ sh k, roundMagFree f n d = sh * 2 ^ f.mbits + k ∧ k = divNearestEven n (d * 2 ^ sh) ∧
      sh = quantumLog f (n / d) ∧ k ≤ 2 ^ (f.mbits + 1) ∧ (sh = 0 ∨ 2 ^ f.mbits ≤ k) ∧
      (sh = 0 ∨ 2 ^ f.mbits * (d * 2 ^ sh) ≤ n) := by
  refine ⟨_, _, rfl, rfl, rfl, ?_, ?_, ?_⟩
  · have h := roundMagFree_le (f := f) (n := n) hd
    rw [Nat.add_mul, ← Nat.pow_succ', roundMagFree] at h
    exact Nat.le_of_add_le_add_left h
  · refine (Nat.eq_zero_or_pos _).imp_right fun hpos => ?_
    have h := le_roundMagFree (f := f) hd hpos
    rw [Nat.add_mul, Nat.one_mul, roundMagFree] at h
    exact Nat.le_of_add_le_add_left h
  · refine (Nat.eq_zero_or_pos _).imp_right fun hpos => ?_
    calc 2 ^ f.mbits * (d * 2 ^ quantumLog f (n / d))
        = 2 ^ f.mbits * 2 ^ quantumLog f (n / d) * d := by ring
      _ ≤ n / d * d := Nat.mul_le_mul_right _ (quantum_le hpos)
      _ ≤ n := Nat.div_mul_le_self _ _

theorem even_quanta {f : Fmt} {sh k : Nat} (hf : f.mbits ≠ 0) (hk : k % 2 = 0) :
    (sh * 2 ^ f.mbits + k) % 2 = 0 := by
  obtain ⟨b, hb⟩ := Nat.exists_eq_succ_of_ne_zero hf
  rw [hb, pow_succ, ← Nat.mul_assoc]
  omega

/-- The exact value lies above the middle between the chosen magnitude and any smaller one, or in it, and then
the chosen one is even. -/
theorem roundMagFree_above_middle {f : Fmt} (hf : f.mbits ≠ 0) {n d m : Nat} (hd : 0 < d)
    (hm : m < roundMagFree f n d) :
    (magUnits f m + magUnits f (roundMagFree f n d)) * d ≤ 2 * n ∧
    ((magUnits f m + magUnits f (roundMagFree f n d)) * d = 2 * n → roundMagFree f n d % 2 = 0) := by
  obtain ⟨sh, k, hv, hk, -, hhi, hlo, hn⟩ := roundMagFree_quanta f (n := n) hd
  have hD : 0 < d * 2 ^ sh := Nat.mul_pos hd (Nat.two_pow_pos _)
  have hval := magUnits_quanta hlo hhi
  have hmono := magUnits_lt_iff (f := f).2 hm
  rw [hv] at hm hmono ⊢
  rw [hval] at hmono ⊢
  have hstrict : (magUnits f m + k * 2 ^ sh) * d < 2 * (k * (d * 2 ^ sh)) := by nlinarith
  rcases Nat.lt_or_ge n (k * (d * 2 ^ sh)) with hlt | hge
  · -- the value is below the chosen magnitude, so the next smaller one has the same quantum
    have hlo' : sh = 0 ∨ 2 ^ f.mbits ≤ k - 1 := hn.imp_right fun h => by
      have := Nat.lt_of_mul_lt_mul_right (h.trans_lt hlt); omega
    have hk0 : k ≠ 0 := by rintro rfl; omega
    have hpred := magUnits_quanta hlo' (by omega)
    have hle : magUnits f m ≤ (k - 1) * 2 ^ sh := by rw [← hpred, magUnits_le_iff]; omega
    obtain ⟨j, rfl⟩ := Nat.exists_eq_succ_of_ne_zero hk0
    rw [Nat.succ_sub_one] at hle
    have hround := (divNearestEven_bounds (n := n) hD).2
    have htie := divNearestEven_tie_above (n := n) hD
    rw [← hk] at hround htie
    have hmid : (magUnits f m + j.succ * 2 ^ sh) * d + d * 2 ^ sh ≤ 2 * j.succ * (d * 2 ^ sh) := by
      calc _ ≤ (j * 2 ^ sh + j.succ * 2 ^ sh) * d + d * 2 ^ sh := by gcongr
        _ = _ := by rw [Nat.succ_eq_add_one]; ring
    exact ⟨by omega, fun heq => even_quanta hf (htie (by omega))⟩
  · exact ⟨by omega, fun heq => by omega⟩

/-- The exact value lies below the middle between the chosen magnitude and any greater one, or in it, and then
the chosen one is even. -/
theorem roundMagFree_below_middle {f : Fmt} (hf : f.mbits ≠ 0) {n d m : Nat} (hd : 0 < d)
    (hm : roundMagFree f n d < m) :
    2 * n ≤ (magUnits f m + magUnits f (roundMagFree f n d)) * d ∧
    (2 * n = (magUnits f m + magUnits f (roundMagFree f n d)) * d → roundMagFree f n d % 2 = 0) := by
  obtain ⟨sh, k, hv, hk, -, hhi, hlo, -⟩ := roundMagFree_quanta f (n := n) hd
  have hD : 0 < d * 2 ^ sh := Nat.mul_pos hd (Nat.two_pow_pos _)
  have hp : 0 < 2 ^ f.mbits := Nat.two_pow_pos _
  have hval := magUnits_quanta hlo hhi
  have hnext : magUnits f (roundMagFree f n d) + 2 ^ sh ≤ magUnits f m := by
    calc _ ≤ magUnits f (roundMagFree f n d) + 2 ^ (roundMagFree f n d / 2 ^ f.mbits - 1) := by
          gcongr
          · omega
          · rcases hlo with rfl | hlo
            · exact Nat.zero_le _
            · rw [hv, Nat.add_comm, Nat.add_mul_div_right _ _ hp]
              have := Nat.div_pos hlo hp
              omega
      _ = magUnits f (roundMagFree f n d + 1) := (magUnits_add_one f _).symm
      _ ≤ magUnits f m := magUnits_le_iff.2 hm
  rw [hv, hval] at hnext
  rw [hv, hval]
  have hround := (divNearestEven_bounds (n := n) hD).1
  have htie := divNearestEven_tie_below (n := n) hD
  rw [← hk] at hround htie
  have hmid : (2 * k + 1) * (d * 2 ^ sh) ≤ (magUnits f m + k * 2 ^ sh) * d := by
    calc _ = (k * 2 ^ sh + 2 ^ sh + k * 2 ^ sh) * d := by ring
      _ ≤ _ := by gcongr
  exact ⟨by omega, fun heq => even_quanta hf (htie (by omega))⟩

/-- A magnitude is at least as near as another if the exact value is on its side of their middle. -/
theorem nearer_of_middle {a b n : Int}
    (h : (b < a ∧ b + a ≤ 2 * n) ∨ (a < b ∧ 2 * n ≤ b + a)) :
    (a - n).natAbs ≤ (b - n).natAbs ∧ ((a - n).natAbs = (b - n).natAbs → b + a = 2 * n) := by
  omega

/-- Bounded rounding: the exact value lies on the chosen magnitude's side of the middle to any other magnitude up
to the infinity, and only for an even choice in that middle. -/
theorem roundMag_middle {f : Fmt} (hf : f.mbits ≠ 0) {n d m : Nat} (hd : 0 < d) (hm : m ≤ f.infMag)
    (hne : m ≠ roundMag f n d) :
    ((m < roundMag f n d ∧ (magUnits f m + magUnits f (roundMag f n d)) * d ≤ 2 * n) ∨
      (roundMag f n d < m ∧ 2 * n ≤ (magUnits f m + magUnits f (roundMag f n d)) * d)) ∧
    ((magUnits f m + magUnits f (roundMag f n d)) * d = 2 * n → roundMag f n d % 2 = 0) := by
  rw [roundMag_eq] at hne ⊢
  rcases Nat.lt_or_ge f.infMag (roundMagFree f n d) with hinf | hfree
  · rw [Nat.min_eq_right hinf.le] at hne ⊢
    have hlt : m < f.infMag := by omega
    have hmid := (roundMagFree_above_middle hf hd hinf).1
    have hmono := magUnits_lt_iff (f := f).2 (hlt.trans hinf)
    have hstrict : (magUnits f m + magUnits f f.infMag) * d < 2 * n := by nlinarith
    exact ⟨.inl ⟨hlt, hstrict.le⟩, fun heq => absurd heq hstrict.ne⟩
  · rw [Nat.min_eq_left hfree] at hne ⊢
    rcases Nat.lt_or_gt_of_ne hne with hlt | hgt
    · have h := roundMagFree_above_middle hf hd hlt
      exact ⟨.inl ⟨hlt, h.1⟩, h.2⟩
    · have h := roundMagFree_below_middle hf hd hgt
      exact ⟨.inr ⟨hgt, h.1⟩, fun heq => h.2 heq.symm⟩

/-- Rounding is to nearest, ties to even. -/
theorem roundMag_nearest_even {f : Fmt} (hf : f.mbits ≠ 0) {n d m : Nat} (hd : 0 < d)
    (hm : m ≤ f.infMag) :
    ((magUnits f (roundMag f n d) : Int) * d - n).natAbs ≤ ((magUnits f m : Int) * d - n).natAbs ∧
    (((magUnits f (roundMag f n d) : Int) * d - n).natAbs = ((magUnits f m : Int) * d - n).natAbs →
      m ≠ roundMag f n d → roundMag f n d % 2 = 0) := by
  by_cases hne : m = roundMag f n d
  · exact ⟨by rw [hne], fun _ h => absurd hne h⟩
  · obtain ⟨hside, heven⟩ := roundMag_middle hf hd hm hne
    have hsum : ((magUnits f m : Int) * d + (magUnits f (roundMag f n d) : Int) * d) =
        ((magUnits f m + magUnits f (roundMag f n d)) * d : Nat) := by push_cast; ring
    have hnear := nearer_of_middle (a := (magUnits f (roundMag f n d) : Int) * d)
      (b := (magUnits f m : Int) * d) (n := n) <| by
        rw [hsum]
        refine hside.imp (fun h => ⟨?_, by exact_mod_cast h.2⟩) (fun h => ⟨?_, by exact_mod_cast h.2⟩)
        · exact_mod_cast Nat.mul_lt_mul_of_pos_right (magUnits_lt_iff.2 h.1) hd
        · exact_mod_cast Nat.mul_lt_mul_of_pos_right (magUnits_lt_iff.2 h.1) hd
    rw [hsum] at hnear
    exact ⟨hnear.1, fun heq _ => heven (by exact_mod_cast hnear.2 heq)⟩

/-! ### Exact values, rounded once -/

namespace Fp

theorem isRounded_num {f : Fmt} {r : Fp} {z : Int} {d : Nat} {b : Bool} (h : IsRounded f r z d b) :
    r.Num f := by
  rw [Num, h.1]; exact roundMag_le_inf _ _ _

theorem isRounded_ofUnits (f : Fmt) (z : Int) (d : Nat) (b : Bool) :
    IsRounded f (ofUnits f z d b) z d b := ⟨rfl, rfl⟩

/-- A rounded magnitude with its sign put back is the signed value, rounded. -/
theorem isRounded_signed (f : Fmt) (neg : Bool) (n d : Nat) :
    IsRounded f ⟨neg, roundMag f n d⟩ (if neg then -(n : Int) else n) d neg := by
  cases neg
  · exact ⟨by simp, by simp⟩
  · refine ⟨by simp, ?_⟩
    rcases Nat.eq_zero_or_pos n with rfl | hn
    · simp
    · simp [hn, hn.ne']

theorem natAbs_units (f : Fmt) (x : Fp) : (x.units f).natAbs = magUnits f x.mag := by
  unfold units; split <;> omega

theorem mag_ne_zero {f : Fmt} {x : Fp} (h : x.units f ≠ 0) : x.mag ≠ 0 := by
  rwa [Ne, ← magUnits_eq_zero (f := f), ← natAbs_units, Int.natAbs_eq_zero]

theorem units_mul_units (f : Fmt) (x y : Fp) :
    x.units f * y.units f = if (x.neg != y.neg) then -((magUnits f x.mag * magUnits f y.mag : Nat) : Int)
      else (magUnits f x.mag * magUnits f y.mag : Nat) := by
  unfold units; cases x.neg <;> cases y.neg <;> simp

theorem units_mul_sign {f : Fmt} {x y : Fp} (n : Nat) (h : y.units f ≠ 0) :
    x.units f * n * (y.units f).sign = if (x.neg != y.neg) then -((magUnits f x.mag * n : Nat) : Int)
      else (magUnits f x.mag * n : Nat) := by
  have hy : 0 < (magUnits f y.mag : Int) := by
    rw [← natAbs_units]; omega
  unfold units
  cases x.neg <;> cases y.neg <;> simp [Int.sign_eq_one_of_pos hy]

theorem isRounded_add {f : Fmt} {x y : Fp} (hx : x.mag < f.infMag) (hy : y.mag < f.infMag) :
    IsRounded f (add f x y) (x.units f + y.units f) 1 (x.neg && y.neg) := by
  rw [add_of_finite hx hy]; exact isRounded_ofUnits _ _ _ _

theorem isRounded_sub {f : Fmt} {x y : Fp} (hx : x.mag < f.infMag) (hy : y.mag < f.infMag) :
    IsRounded f (sub f x y) (x.units f - y.units f) 1 (x.neg && !y.neg) := by
  have h := isRounded_add (y := y.negate) hx hy
  rwa [units_negate, ← Int.sub_eq_add_neg] at h

theorem isRounded_mul {f : Fmt} {x y : Fp} (hx : x.mag < f.infMag) (hy : y.mag < f.infMag) :
    IsRounded f (mul f x y) (x.units f * y.units f) (2 ^ f.unitLog) (x.neg != y.neg) := by
  rw [mul_of_finite hx hy, units_mul_units]
  exact isRounded_signed _ _ _ _

theorem isRounded_div {f : Fmt} {x y : Fp} (hx : x.mag < f.infMag) (hy : y.mag < f.infMag)
    (h0 : y.units f ≠ 0) :
    IsRounded f (div f x y) (x.units f * 2 ^ f.unitLog * (y.units f).sign) (y.units f).natAbs
      (x.neg != y.neg) := by
  have hpow : (2 : Int) ^ f.unitLog = (2 ^ f.unitLog : Nat) := by push_cast; rfl
  rw [hpow, div_of_finite hx hy (mag_ne_zero h0), units_mul_sign _ h0, natAbs_units]
  exact isRounded_signed _ _ _ _

theorem isRounded_ofInt (f : Fmt) (z : Int) :
    IsRounded f (ofInt f z) (z * 2 ^ f.unitLog) 1 false := by
  have h := isRounded_ofUnits f (z * (2 ^ f.unitLog : Nat)) 1 false
  rwa [Nat.cast_pow] at h

/-- The floor is the greatest integer not above the value. -/
theorem floor_spec (f : Fmt) (x : Fp) :
    x.floor f * 2 ^ f.unitLog ≤ x.units f ∧ x.units f < (x.floor f + 1) * 2 ^ f.unitLog := by
  have hpos : (0 : Int) < 2 ^ f.unitLog := by positivity
  unfold floor
  rw [Nat.cast_pow]
  exact ⟨Int.ediv_mul_le _ hpos.ne', Int.lt_ediv_add_one_mul_self _ hpos⟩

/-! ### Conversions between the formats (00_scope.md R22) -/

theorem convertFp_of_finite {f g : Fmt} {n d : Nat} {x : Fp} (hx : x.mag < f.infMag) :
    convertFp f g n d x = ⟨x.neg, roundMag g (magUnits f x.mag * n) d⟩ := by
  have hinf : x.isInf f = false := by simp [isInf]; omega
  simp [convertFp, isNaN_eq_false hx.le, hinf]

theorem isRounded_convertFp {f g : Fmt} {n d : Nat} {x : Fp} (hx : x.mag < f.infMag) :
    IsRounded g (convertFp f g n d x) (x.units f * n) d x.neg := by
  have hu : x.units f * n = if x.neg then -((magUnits f x.mag * n : Nat) : Int)
      else (magUnits f x.mag * n : Nat) := by
    unfold units; cases x.neg <;> simp
  rw [convertFp_of_finite hx, hu]
  exact isRounded_signed _ _ _ _

end Fp

/-- A number of units that fills no more bits than the significand has is represented, up to the infinity. -/
theorem magUnits_roundMag_of_short {f : Fmt} {c t : Nat} (hc : c < 2 ^ (f.mbits + 1))
    (hinf : c * 2 ^ t < magUnits f f.infMag) :
    roundMag f (c * 2 ^ t) 1 < f.infMag ∧ magUnits f (roundMag f (c * 2 ^ t) 1) = c * 2 ^ t := by
  have hlog : quantumLog f (c * 2 ^ t) ≤ t := by
    rcases Nat.eq_zero_or_pos c with rfl | hpos
    · simp [quantumLog]
    · have hlt : Nat.log2 (c * 2 ^ t) < f.mbits + 1 + t :=
        (Nat.log2_lt (by positivity)).2 (by rw [pow_add]; gcongr)
      unfold quantumLog; omega
  have hfree : magUnits f (roundMagFree f (c * 2 ^ t) 1) = c * 2 ^ t := by
    obtain ⟨sh, k, hv, hk, hsh, hhi, hlo, -⟩ := roundMagFree_quanta f (n := c * 2 ^ t) Nat.one_pos
    rw [Nat.div_one] at hsh
    obtain ⟨j, rfl⟩ := Nat.exists_eq_add_of_le (hsh ▸ hlog)
    have hdiv : c * 2 ^ (sh + j) = c * 2 ^ j * (1 * 2 ^ sh) := by rw [pow_add]; ring
    rw [hdiv, divNearestEven_mul _ _ (by positivity)] at hk
    rw [hv, magUnits_quanta hlo hhi, hk, hdiv, Nat.one_mul]
  have hlt : roundMagFree f (c * 2 ^ t) 1 < f.infMag := by
    rwa [← magUnits_lt_iff (f := f), hfree]
  rw [roundMag_eq, Nat.min_eq_left hlt.le]
  exact ⟨hlt, hfree⟩

/-- A magnitude's units are a short significand times a power of two. -/
theorem magUnits_short (f : Fmt) (m : Nat) :
    ∃ c t, c < 2 ^ (f.mbits + 1) ∧ magUnits f m = c * 2 ^ t := by
  have hr := Nat.mod_lt m (Nat.two_pow_pos f.mbits)
  unfold magUnits
  split
  · exact ⟨_, 0, hr.trans (Nat.pow_lt_pow_right (by omega) (by omega)), by simp⟩
  · exact ⟨_, _, by rw [pow_succ]; omega, rfl⟩


/-- The infinity read as a magnitude: the power of two above the greatest finite value. -/
theorem magUnits_infMag {f : Fmt} {e : Nat} (he : 2 ^ f.ebits = e + 2) :
    magUnits f f.infMag = 2 ^ (f.mbits + e) := by
  have hinf : f.infMag = e * 2 ^ f.mbits + 2 ^ f.mbits := by
    rw [Fmt.infMag, he, Nat.add_sub_assoc (by omega), Nat.add_mul, Nat.one_mul]
  rw [hinf, magUnits_quanta (.inr le_rfl) (Nat.pow_le_pow_right (by omega) (by omega)), pow_add]

theorem magUnits_mul_lt_infMag {f g : Fmt} {e e' k m : Nat} (hf : 2 ^ f.ebits = e + 2)
    (hg : 2 ^ g.ebits = e' + 2) (hle : f.mbits + e + k ≤ g.mbits + e') (hm : m < f.infMag) :
    magUnits f m * 2 ^ k < magUnits g g.infMag := by
  calc magUnits f m * 2 ^ k < magUnits f f.infMag * 2 ^ k :=
        Nat.mul_lt_mul_of_pos_right (magUnits_lt_iff.2 hm) (Nat.two_pow_pos k)
    _ = 2 ^ (f.mbits + e + k) := by rw [magUnits_infMag hf, ← pow_add]
    _ ≤ 2 ^ (g.mbits + e') := Nat.pow_le_pow_right (by omega) hle
    _ = magUnits g g.infMag := (magUnits_infMag hg).symm

/-- A conversion to a wider format is exact where the value does not reach the infinity. -/
theorem Fp.convertFp_exact {f g : Fmt} {k : Nat} {x : Fp} (hx : x.mag < f.infMag)
    (hbits : f.mbits ≤ g.mbits) (hlt : magUnits f x.mag * 2 ^ k < magUnits g g.infMag) :
    (convertFp f g (2 ^ k) 1 x).mag < g.infMag ∧
    (convertFp f g (2 ^ k) 1 x).units g = x.units f * 2 ^ k ∧
    (convertFp f g (2 ^ k) 1 x).neg = x.neg := by
  obtain ⟨c, t, hc, hu⟩ := magUnits_short f x.mag
  have hn : magUnits f x.mag * 2 ^ k = c * 2 ^ (t + k) := by rw [hu, Nat.mul_assoc, ← pow_add]
  have hc' : c < 2 ^ (g.mbits + 1) := hc.trans_le (Nat.pow_le_pow_right (by omega) (by omega))
  obtain ⟨hfin, hexact⟩ := magUnits_roundMag_of_short hc' (hn ▸ hlt)
  rw [← hn] at hfin hexact
  rw [convertFp_of_finite hx]
  refine ⟨hfin, ?_, rfl⟩
  unfold units
  cases x.neg <;> simp [hexact]

/-! ### The operations on bit patterns -/

theorem unitLog32 : fmt32.unitLog = 149 := by decide
theorem unitLog64 : fmt64.unitLog = 1074 := by decide

theorem isFinite32_iff {x : F32} : isFinite32 x = true ↔ (unpack32 x).mag < fmt32.infMag := by
  simp [isFinite32, Fp.isFinite]

theorem isFinite64_iff {x : F64} : isFinite64 x = true ↔ (unpack64 x).mag < fmt64.infMag := by
  simp [isFinite64, Fp.isFinite]

/-- Packing a rounded result loses nothing. -/
theorem isRounded_pack32 {r : Fp} {z : Int} {d : Nat} {b : Bool} (h : IsRounded fmt32 r z d b) :
    IsRounded fmt32 (unpack32 (pack32 r)) z d b := by
  rwa [unpack32_pack32_of_num (Fp.isRounded_num h)]

theorem isRounded_pack64 {r : Fp} {z : Int} {d : Nat} {b : Bool} (h : IsRounded fmt64 r z d b) :
    IsRounded fmt64 (unpack64 (pack64 r)) z d b := by
  rwa [unpack64_pack64_of_num (Fp.isRounded_num h)]

/-- The greatest binary32 values are far below the binary64 infinity. -/
theorem widened_units_lt {m : Nat} (hm : m < fmt32.infMag) :
    magUnits fmt32 m * 2 ^ 925 < magUnits fmt64 fmt64.infMag :=
  magUnits_mul_lt_infMag (e := 254) (e' := 2046) (by decide) (by decide) (by decide) hm

/-- Widening a finite binary32 is exact (00_scope.md R22). -/
theorem widenF32_exact {x : F32} (hx : isFinite32 x = true) :
    isFinite64 (widenF32 x) = true ∧
    (unpack64 (widenF32 x)).units fmt64 = (unpack32 x).units fmt32 * 2 ^ 925 ∧
    (widenF32 x).msb = x.msb := by
  rw [isFinite32_iff] at hx
  obtain ⟨hfin, hunits, hneg⟩ :=
    Fp.convertFp_exact (g := fmt64) hx (by decide) (widened_units_lt hx)
  have hpack : unpack64 (widenF32 x) = _ := unpack64_pack64_of_num (Nat.le_of_lt hfin)
  have hmsb : (widenF32 x).msb = (unpack64 (widenF32 x)).neg := rfl
  rw [isFinite64_iff, hmsb, hpack]
  exact ⟨hfin, hunits, hneg⟩

/-- Settles O19: the middle argument for rounding, then one exact value per operation, packed without loss. -/
theorem roundingIsNearestEven : Obligations.RoundingIsNearestEven := by
  refine ⟨?nearest, ?binary32, ?binary64, ?integers, fun _ => rfl⟩
  case nearest =>
    intro f hf n d m hd hm
    have hbits : f.mbits ≠ 0 := by rcases hf with rfl | rfl <;> decide
    exact ⟨roundMag_le_inf f n d, roundMag_nearest_even hbits hd hm⟩
  case binary32 =>
    rintro x y _ _ hx hy rfl rfl
    have hwiden := widenF32_exact hx
    rw [isFinite32_iff] at hx hy
    have hmul := Fp.isRounded_mul hx hy
    have hdiv := Fp.isRounded_div hx hy
    obtain ⟨hfloor, hfloor'⟩ := Fp.floor_spec fmt32 (unpack32 x)
    rw [unitLog32] at hmul hdiv hfloor hfloor'
    exact ⟨isRounded_pack32 (Fp.isRounded_add hx hy), isRounded_pack32 (Fp.isRounded_sub hx hy),
      isRounded_pack32 hmul, fun h0 => isRounded_pack32 (hdiv h0), Fp.le_iff hx.le hy.le,
      Fp.lt_iff hx.le hy.le, hfloor, hfloor', hwiden⟩
  case binary64 =>
    rintro x y _ _ hx hy rfl rfl
    rw [isFinite64_iff] at hx hy
    have hmul := Fp.isRounded_mul hx hy
    have hdiv := Fp.isRounded_div hx hy
    have hnarrow := Fp.isRounded_convertFp (g := fmt32) (n := 1) (d := 2 ^ 925) hx
    obtain ⟨hfloor, hfloor'⟩ := Fp.floor_spec fmt64 (unpack64 x)
    rw [unitLog64] at hmul hdiv hfloor hfloor'
    rw [Nat.cast_one, Int.mul_one] at hnarrow
    exact ⟨isRounded_pack64 (Fp.isRounded_add hx hy), isRounded_pack64 (Fp.isRounded_sub hx hy),
      isRounded_pack64 hmul, fun h0 => isRounded_pack64 (hdiv h0), Fp.le_iff hx.le hy.le,
      Fp.lt_iff hx.le hy.le, hfloor, hfloor', isRounded_pack32 hnarrow⟩
  case integers =>
    intro z
    have h32 := Fp.isRounded_ofInt fmt32 z
    have h64 := Fp.isRounded_ofInt fmt64 z
    rw [unitLog32] at h32
    rw [unitLog64] at h64
    exact ⟨isRounded_pack32 h32, isRounded_pack64 h64⟩

end Sys2Proof.Machine
end

section
namespace Sys2Proof.Machine

/-! ### NaN results (00_scope.md R19) -/

/-- An operation whose only NaN result is the canonical one, and that gives it for every NaN operand. -/
def Fp.CanonicalNan (f : Fmt) (op : Fp → Fp → Fp) : Prop :=
  ∀ x y, (op x y = Fp.nan f ∨ (op x y).Num f) ∧
    (x.isNaN f = true ∨ y.isNaN f = true → op x y = Fp.nan f)

namespace Fp

theorem num_of_isInf {f : Fmt} {x : Fp} (h : x.isInf f = true) : x.Num f :=
  Nat.le_of_eq (of_decide_eq_true h)

theorem canonicalNan_add (f : Fmt) : CanonicalNan f (add f) := by
  intro x y
  refine ⟨?_, fun h => by simp [add, h]⟩
  unfold add
  split_ifs with hnan hx hy hy
  · exact .inl rfl
  · exact .inl rfl
  · exact .inr (num_of_isInf hx)
  · exact .inr (num_of_isInf hy)
  · exact .inr (ofUnits_num _ _ _ _)

theorem canonicalNan_sub (f : Fmt) : CanonicalNan f (sub f) :=
  fun x y => canonicalNan_add f x y.negate

theorem canonicalNan_mul (f : Fmt) : CanonicalNan f (mul f) := by
  intro x y
  refine ⟨?_, fun h => by simp [mul, h]⟩
  unfold mul
  split_ifs with hnan hinf hzero
  · exact .inl rfl
  · exact .inl rfl
  · exact .inr (Nat.le_refl f.infMag)
  · exact .inr (roundMag_le_inf _ _ _)

theorem canonicalNan_div (f : Fmt) : CanonicalNan f (div f) := by
  intro x y
  refine ⟨?_, fun h => by simp [div, h]⟩
  unfold div
  split_ifs with hnan hx hy hy hyzero hxzero
  · exact .inl rfl
  · exact .inl rfl
  · exact .inr (Nat.le_refl f.infMag)
  · exact .inr (Nat.zero_le f.infMag)
  · exact .inl rfl
  · exact .inr (Nat.le_refl f.infMag)
  · exact .inr (roundMag_le_inf _ _ _)

end Fp

theorem pack32_nan : pack32 (Fp.nan fmt32) = 0x7FC00000#32 := by decide
theorem pack64_nan : pack64 (Fp.nan fmt64) = 0x7FF8000000000000#64 := by decide

/-- A packed operation keeps the rule of canonical NaNs. -/
theorem canonicalNan_pack32 {op : Fp → Fp → Fp} (h : Fp.CanonicalNan fmt32 op) (x y : F32) :
    (isNaN32 (pack32 (op (unpack32 x) (unpack32 y))) = true →
      pack32 (op (unpack32 x) (unpack32 y)) = 0x7FC00000#32) ∧
    (isNaN32 x = true ∨ isNaN32 y = true →
      pack32 (op (unpack32 x) (unpack32 y)) = 0x7FC00000#32) := by
  obtain ⟨hres, hnan⟩ := h (unpack32 x) (unpack32 y)
  refine ⟨fun hr => ?_, fun hxy => by rw [hnan hxy, pack32_nan]⟩
  rcases hres with hres | hnum
  · rw [hres, pack32_nan]
  · rw [isNaN32, unpack32_pack32_of_num hnum, Fp.isNaN_eq_false hnum] at hr
    cases hr

theorem canonicalNan_pack64 {op : Fp → Fp → Fp} (h : Fp.CanonicalNan fmt64 op) (x y : F64) :
    ((unpack64 (pack64 (op (unpack64 x) (unpack64 y)))).isNaN fmt64 = true →
      pack64 (op (unpack64 x) (unpack64 y)) = 0x7FF8000000000000#64) ∧
    ((unpack64 x).isNaN fmt64 = true ∨ (unpack64 y).isNaN fmt64 = true →
      pack64 (op (unpack64 x) (unpack64 y)) = 0x7FF8000000000000#64) := by
  obtain ⟨hres, hnan⟩ := h (unpack64 x) (unpack64 y)
  refine ⟨fun hr => ?_, fun hxy => by rw [hnan hxy, pack64_nan]⟩
  rcases hres with hres | hnum
  · rw [hres, pack64_nan]
  · rw [unpack64_pack64_of_num hnum, Fp.isNaN_eq_false hnum] at hr
    cases hr

/-- Settles O20: each operation's branches give the canonical NaN or a number. -/
theorem nanResultsAreCanonical : Obligations.NanResultsAreCanonical := by
  simp only [Obligations.NanResultsAreCanonical, List.forall_mem_cons, List.not_mem_nil,
    false_implies, implies_true, and_true]
  exact ⟨⟨canonicalNan_pack32 (Fp.canonicalNan_add _), canonicalNan_pack32 (Fp.canonicalNan_sub _),
      canonicalNan_pack32 (Fp.canonicalNan_mul _), canonicalNan_pack32 (Fp.canonicalNan_div _)⟩,
    ⟨canonicalNan_pack64 (Fp.canonicalNan_add _), canonicalNan_pack64 (Fp.canonicalNan_sub _),
      canonicalNan_pack64 (Fp.canonicalNan_mul _), canonicalNan_pack64 (Fp.canonicalNan_div _)⟩⟩

/-! ### The clamp (00_scope.md R21) -/

theorem leF32_not_nan {x y : F32} (h : leF32 x y = true) : isNaN32 x = false ∧ isNaN32 y = false :=
  (Fp.num_of_le h).imp Fp.isNaN_eq_false Fp.isNaN_eq_false

theorem ltF32_not_nan {x y : F32} (h : ltF32 x y = true) : isNaN32 x = false ∧ isNaN32 y = false :=
  (Fp.num_of_lt h).imp Fp.isNaN_eq_false Fp.isNaN_eq_false

theorem leF32_refl {x : F32} (h : isNaN32 x = false) : leF32 x x = true := by
  simp only [isNaN32] at h
  simp [leF32, Fp.le, h]

/-- `x <= y` and `y < x` exclude each other. -/
theorem ltF32_eq_false_of_leF32 {x y : F32} (h : leF32 x y = true) : ltF32 y x = false := by
  obtain ⟨hx, hy⟩ := Fp.num_of_le h
  rw [leF32, Fp.le_iff hx hy] at h
  rw [ltF32, ← Bool.not_eq_true, Fp.lt_iff hy hx]
  omega

theorem leF32_of_ltF32 {x y : F32} (h : ltF32 x y = true) : leF32 x y = true := by
  obtain ⟨hx, hy⟩ := Fp.num_of_lt h
  rw [ltF32, Fp.lt_iff hx hy] at h
  rw [leF32, Fp.le_iff hx hy]
  exact h.le

/-- A NaN and a value below the bounds give the lower one, a value above them the upper one, and a value between
them stays. -/
theorem clampf_cases (v : F32) {lo hi : F32} (h : leF32 lo hi = true) :
    (isNaN32 v = true ∧ clampf v lo hi = lo) ∨ (ltF32 v lo = true ∧ clampf v lo hi = lo) ∨
    (ltF32 hi v = true ∧ clampf v lo hi = hi) ∨
    (leF32 lo v = true ∧ leF32 v hi = true ∧ clampf v lo hi = v) := by
  obtain ⟨hlo, hhi⟩ := leF32_not_nan h
  unfold clampf
  split_ifs with hnan hbelow habove
  · exact .inl ⟨hnan, rfl⟩
  · exact .inr (.inl ⟨hbelow, rfl⟩)
  · exact .inr (.inr (.inl ⟨habove, rfl⟩))
  · rw [Bool.not_eq_true] at hnan hbelow habove
    exact .inr (.inr (.inr ⟨leF32_of_not_ltF32 hnan hlo hbelow, leF32_of_not_ltF32 hhi hnan habove, rfl⟩))

theorem clampf_mem {v lo hi : F32} (h : leF32 lo hi = true) :
    leF32 lo (clampf v lo hi) = true ∧ leF32 (clampf v lo hi) hi = true := by
  obtain ⟨hlo, hhi⟩ := leF32_not_nan h
  rcases clampf_cases v h with ⟨-, e⟩ | ⟨-, e⟩ | ⟨-, e⟩ | ⟨hl, hh, e⟩ <;> rw [e]
  · exact ⟨leF32_refl hlo, h⟩
  · exact ⟨leF32_refl hlo, h⟩
  · exact ⟨h, leF32_refl hhi⟩
  · exact ⟨hl, hh⟩

/-- Settles O21: the tests of `clampf` in order, each decided by the case the value is in. -/
theorem clampLandsBetweenItsBounds : Obligations.ClampLandsBetweenItsBounds := by
  intro v lo hi h
  obtain ⟨hmem, hmem'⟩ := clampf_mem (v := v) h
  refine ⟨hmem, hmem', fun hnan => ?nan, fun hbelow => ?below, fun habove => ?above,
    fun hl hh => ?between⟩
  case nan => simp [clampf, hnan]
  case below => simp [clampf, hbelow]
  case above =>
    have hnan := (ltF32_not_nan habove).2
    have hbelow := ltF32_eq_false_of_leF32 (leF32_trans h (leF32_of_ltF32 habove))
    simp [clampf, hnan, hbelow, habove]
  case between =>
    have hnan := (leF32_not_nan hl).2
    have hbelow := ltF32_eq_false_of_leF32 hl
    have habove := ltF32_eq_false_of_leF32 hh
    simp [clampf, hnan, hbelow, habove]

/-! ### A command in front (30_encoding.md R136) -/

theorem command_of_ok {w : U32} {i : Instr} (h : decode w = .ok i) (s : State) :
    command w s = exec i s := by
  simp [command, h]

theorem command_of_error {w : U32} {c : CmdError} (h : decode w = .error c) (s : State) :
    command w s = .next (s.reject c) := by
  simp [command, h]

/-- With nothing before it, a write of a word to CMD is the work of the step. -/
theorem step_of_cmdWrite {s : State} {g : Arrival} {w : U32} {rest : List Input}
    (ht : s.env.turn = .work g) (hp : s.expiryPending = false)
    (hi : s.env.inputs = cmdWrite s.cfg.baseAddr w :: rest) :
    step s = during g (command w)
      { s with env := { s.env with inputs := rest, turns := s.env.turns.tail } } := by
  rw [step_of_input ht hp hi]
  cases g with
  | none => exact accept_cmdWrite w _
  | early => exact accept_cmdWrite w _
  | late => exact congrArg (mapNext State.latchExpiry) (accept_cmdWrite w _)

/-- A rejected word in front: the sticky error is set, and an expiry that arrived is latched. -/
theorem during_command_of_error {w : U32} {c : CmdError} (h : decode w = .error c) (g : Arrival)
    {s : State} (hp : s.expiryPending = false) :
    during g (command w) s = .next
      { s with
        sticky := { s.sticky with err := true, lastErr := some c }
        expiryPending := decide (g ≠ .none)
        env := { s.env with timer := if g = .none then s.env.timer else .disarmed } } := by
  cases g with
  | none =>
    refine (command_of_error h s).trans ?_
    simp [State.reject, ← hp]
  | early => exact command_of_error h s.latchExpiry
  | late => exact congrArg (mapNext State.latchExpiry) (command_of_error h s)

theorem decodeTableWord_eq_some {nbits w : Nat} {i : Instr} :
    decodeTableWord nbits w = some i ↔ decode (BitVec.ofNat 32 (w % 2 ^ nbits)) = .ok i := by
  unfold decodeTableWord
  cases decode (BitVec.ofNat 32 (w % 2 ^ nbits)) <;> simp

/-- The step after `withFetchWord` is the command port's on the word placed, the pending expiry cleared. -/
theorem step_withFetchWord (s : State) (nbits w : Nat) :
    step (s.withFetchWord nbits w) =
      command (BitVec.ofNat 32 (w % 2 ^ nbits)) { s with expiryPending := false } :=
  step_of_cmdWrite (s := s.withFetchWord nbits w) (g := .none) rfl rfl rfl

/-- Settles O7: the write in front is the step's work, and the decoder's answer says what that work is. -/
theorem stepRunsTheDecodedCommand : Obligations.StepRunsTheDecodedCommand := by
  refine ⟨?_, fun s nbits w i hdec => ?_⟩
  · rintro s s' w g rest ht hp hi rfl
    have hstep := step_of_cmdWrite ht hp hi
    refine ⟨fun i hdec => ⟨?_, ?_, ?_⟩, fun c hdec => ?_⟩
    · rintro rfl
      exact hstep.trans (command_of_ok hdec _)
    · rintro rfl
      exact hstep.trans (command_of_ok hdec _)
    · rintro rfl
      exact hstep.trans (congrArg (mapNext State.latchExpiry) (command_of_ok hdec _))
    · exact hstep.trans (during_command_of_error hdec g hp)
  · rw [step_withFetchWord, command_of_ok (decodeTableWord_eq_some.1 hdec)]

end Sys2Proof.Machine
end

section
/-! PROOF. What a command can do, said once: which record operations there are, that a unit command reads
the parameters, the units and the bank of its context and nothing else (10_state.md R57), and what the
engine's five commands do. -/

namespace Sys2Proof.Machine

/-! ### The operations on records -/

/-- What a command can do to a phase accumulator (41_phase_oscillator.md R200 to R204). -/
inductive AccOp (a : PaccState) : PaccState → Prop
  | setFreq (v : F32) : AccOp a (accSetFreq a v)
  | setSr (v : F32) : AccOp a (accSetSr a v)
  | setPhase (p : F64) : AccOp a (accSetPhase a p)
  | tick : AccOp a (paccTick a).1

/-- What a command can do to an oscillator (41_phase_oscillator.md R220 to R225). -/
inductive OscOp (nTables : Nat) (o : OscState) : OscState → Prop
  | acc {a : PaccState} (op : AccOp o.acc a) : OscOp nTables o { o with acc := a }
  | amp (v : F32) : OscOp nTables o { o with amp := clampf v zeroF32 oneF32 }
  | table (t : U8) (ht : t.toNat < nTables) : OscOp nTables o { o with table := t }

/-- What a command can do to a one-pole filter (42_filters.md R251 to R255). -/
inductive OnePoleOp (o : OnePoleState) : OnePoleState → Prop
  | setCutoff (v : F32) : OnePoleOp o (OnePoleState.derive { o with cutoff := clampCutoff v o.sr })
  | setSr (v : F32) : OnePoleOp o (OnePoleState.derive
      { o with sr := clampSr v, cutoff := clampCutoff o.cutoff (clampSr v) })
  | setMode (m : OnePoleMode) : OnePoleOp o { o with mode := m }
  | history (lp : F32) : OnePoleOp o { o with lp := lp }

/-- What a command can do to a state-variable filter (42_filters.md R261 to R265). -/
inductive SvfOp (f : SvfState) : SvfState → Prop
  | setCutoff (v : F32) : SvfOp f (SvfState.derive { f with cutoff := clampCutoff v f.sr })
  | setRes (v : F32) : SvfOp f (SvfState.derive
      { f with res := clampf v Config.svfResMin Config.svfResMax })
  | setSr (v : F32) : SvfOp f (SvfState.derive
      { f with sr := clampSr v, cutoff := clampCutoff f.cutoff (clampSr v) })
  | history (low band high notch : F32) :
      SvfOp f { f with low := low, band := band, high := high, notch := notch }

/-- What a command can do to a biquad (42_filters.md R281 to R286). -/
inductive BiquadOp (b : BiquadState) : BiquadState → Prop
  | setCutoff (v : F32) : BiquadOp b (BiquadState.derive { b with cutoff := clampCutoff v b.sr })
  | setSr (v : F32) : BiquadOp b (BiquadState.derive
      { b with sr := clampSr v, cutoff := clampCutoff b.cutoff (clampSr v) })
  | setType (t : BqType) : BiquadOp b (BiquadState.derive { b with type := t })
  | setCoeffs (b0 b1 b2 a1 a2 : F32) :
      BiquadOp b { b with b0 := b0, b1 := b1, b2 := b2, a1 := a1, a2 := a2, type := .direct }
  | history (x1 x2 y1 y2 : F32) : BiquadOp b { b with x1 := x1, x2 := x2, y1 := y1, y2 := y2 }

/-- What a command can do to an ADSR envelope (43_envelopes.md R322 to R329). -/
inductive AdsrOp (e : AdsrState) : AdsrState → Prop
  | setAttack (v : F32) : AdsrOp e (AdsrState.derive { e with attack := timeFloor v })
  | setDecay (v : F32) : AdsrOp e (AdsrState.derive { e with decay := timeFloor v })
  | setSustain (v : F32) : AdsrOp e (AdsrState.derive { e with sustain := clampf v zeroF32 oneF32 })
  | setRelease (v : F32) : AdsrOp e (AdsrState.derive { e with release := timeFloor v })
  | setSr (v : F32) : AdsrOp e (AdsrState.derive { e with sr := clampSr v })
  | noteOn : AdsrOp e { e with stage := .attack, target := oneF32, inc := e.attackInc }
  | noteOff (h : e.stage ≠ .idle) :
      AdsrOp e { e with stage := .release, target := zeroF32, inc := negF32 e.releaseInc }
  | tick : AdsrOp e (adsrTick e)

/-- What a command can do to an AR envelope (43_envelopes.md R342 to R346). -/
inductive ArOp (e : ArState) : ArState → Prop
  | setAttack (v : F32) : ArOp e (ArState.derive { e with attack := timeFloor v })
  | setRelease (v : F32) : ArOp e (ArState.derive { e with release := timeFloor v })
  | setSr (v : F32) : ArOp e (ArState.derive { e with sr := clampSr v })
  | trigger : ArOp e { e with stage := .attack, inc := e.attackInc }
  | tick : ArOp e (arTick e)

/-- What a command can do to an LFO (43_envelopes.md R363 to R367). -/
inductive LfoOp (l : LfoState) : LfoState → Prop
  | acc {a : PaccState} (op : AccOp l.acc a) : LfoOp l { l with acc := a }
  | setShape (shape : LfoShape) : LfoOp l { l with shape := shape }
  | setSeed (w : U32) : LfoOp l { l with rng := if w = 0#32 then Config.defaultSeed else w }
  | tick : LfoOp l (lfoTick l)

/-- What a command can do to the units of a block with `nTables` tables: nothing, or one operation on one
record there is. -/
inductive UnitsOp (nTables : Nat) (x : Units) : Units → Prop
  | same : UnitsOp nTables x x
  | pacc {k : Nat} {a a' : PaccState} (h : x.pacc[k]? = some a) (op : AccOp a a') :
      UnitsOp nTables x { x with pacc := x.pacc.set k a' }
  | osc {k : Nat} {o o' : OscState} (h : x.osc[k]? = some o) (op : OscOp nTables o o') :
      UnitsOp nTables x { x with osc := x.osc.set k o' }
  | onepole {k : Nat} {o o' : OnePoleState} (h : x.onepole[k]? = some o) (op : OnePoleOp o o') :
      UnitsOp nTables x { x with onepole := x.onepole.set k o' }
  | svf {k : Nat} {f f' : SvfState} (h : x.svf[k]? = some f) (op : SvfOp f f') :
      UnitsOp nTables x { x with svf := x.svf.set k f' }
  | biquad {k : Nat} {b b' : BiquadState} (h : x.biquad[k]? = some b) (op : BiquadOp b b') :
      UnitsOp nTables x { x with biquad := x.biquad.set k b' }
  | dc {k : Nat} {d : DcState} (h : x.dc[k]? = some d) (d' : DcState) :
      UnitsOp nTables x { x with dc := x.dc.set k d' }
  | adsr {k : Nat} {e e' : AdsrState} (h : x.adsr[k]? = some e) (op : AdsrOp e e') :
      UnitsOp nTables x { x with adsr := x.adsr.set k e' }
  | ar {k : Nat} {e e' : ArState} (h : x.ar[k]? = some e) (op : ArOp e e') :
      UnitsOp nTables x { x with ar := x.ar.set k e' }
  | lfo {k : Nat} {l l' : LfoState} (h : x.lfo[k]? = some l) (op : LfoOp l l') :
      UnitsOp nTables x { x with lfo := x.lfo.set k l' }

/-! ### What a unit command reads and does -/

/-- What a unit command reads. -/
structure View where
  cfg : Config.Params
  units : Units
  bank : Bank

/-- What a unit command reads of a state: of the two banks, the one of its context. -/
def State.view (s : State) : View := ⟨s.cfg, s.units, s.bank⟩

/-- In all states with the view `v` the rule has one effect: the same rejection, or the same operation on the
units with the same results. -/
inductive Acts (v : View) (G : State → Host.Outcome State Fault Refusal) : Prop
  | rejects (c : CmdError) (h : ∀ s : State, s.view = v → G s = .next (s.reject c))
  | writes (x : Units) (vs : List U32) (op : UnitsOp v.cfg.nTables v.units x)
      (h : ∀ s : State, s.view = v → G s = .next ((s.mapUnits fun _ => x).putRes vs))

@[simp] theorem State.putRes_nil (s : State) : s.putRes [] = s := by
  simp [State.putRes, State.mapBank]

namespace Acts

/-- A rule that writes no result. -/
theorem quiet {v : View} {G : State → Host.Outcome State Fault Refusal} {x : Units}
    (op : UnitsOp v.cfg.nTables v.units x)
    (h : ∀ s : State, s.view = v → G s = .next (s.mapUnits fun _ => x) := by rintro _ rfl; rfl) :
    Acts v G :=
  .writes x [] op fun s hs => by rw [h s hs, State.putRes_nil]

/-- A rule that writes a record and results. -/
theorem process {v : View} {G : State → Host.Outcome State Fault Refusal} {x : Units} (vs : List U32)
    (op : UnitsOp v.cfg.nTables v.units x)
    (h : ∀ s : State, s.view = v → G s = .next ((s.mapUnits fun _ => x).putRes vs) := by
      rintro _ rfl; rfl) : Acts v G :=
  .writes x vs op h

/-- A rule that writes results alone. -/
theorem answer {v : View} (vs : List U32) : Acts v fun s => .next (s.putRes vs) :=
  .process vs .same

theorem ofUnit {α : Type} (records : Units → List α) {v : View} {u : U8} {rule : α → State → State}
    (h : ∀ a, (records v.units)[u.toNat]? = some a → Acts v fun s => .next (rule a s)) :
    Acts v fun s => .next (withUnit (records s.units) u s fun a => rule a s) := by
  rcases hrec : (records v.units)[u.toNat]? with _ | a
  · refine .rejects .badUnit ?_
    rintro s rfl
    exact congrArg _ (withUnit_of_none s _ (List.getElem?_eq_none_iff.1 hrec))
  · have hrule : ∀ s : State, s.view = v →
        withUnit (records s.units) u s (fun a => rule a s) = rule a s := by
      rintro s rfl
      exact withUnit_of_some s _ hrec
    cases h a hrec with
    | rejects c h => exact .rejects c fun s hs => by rw [hrule s hs, h s hs]
    | writes x vs op h => exact .writes x vs op fun s hs => by rw [hrule s hs, h s hs]

theorem ofSelector {α : Type} (sel : Config.Params → Option α) {v : View} {rule : α → State → State}
    (h : ∀ a, sel v.cfg = some a → Acts v fun s => .next (rule a s)) :
    Acts v fun s => .next (withSelector (sel s.cfg) s fun a => rule a s) := by
  rcases hsel : sel v.cfg with _ | a
  · refine .rejects .badSelector ?_
    rintro s rfl
    rw [show sel s.cfg = none from hsel]
    rfl
  · have hrule : ∀ s : State, s.view = v →
        withSelector (sel s.cfg) s (fun a => rule a s) = rule a s := by
      rintro s rfl
      rw [show sel s.cfg = some a from hsel]
      rfl
    cases h a hsel with
    | rejects c h => exact .rejects c fun s hs => by rw [hrule s hs, h s hs]
    | writes x vs op h => exact .writes x vs op fun s hs => by rw [hrule s hs, h s hs]

end Acts

theorem tableOf_eq_some {n : Nat} {sel t : U8} (h : tableOf n sel = some t) : t.toNat < n := by
  unfold tableOf at h
  split at h
  · cases h; assumption
  · cases h

/-- A command that is none of the engine's is one operation on one record, with results, or a rejection; and
which it is depends on what the command's context shows alone. -/
theorem exec_acts (i : Instr) (hi : Instr.isEngine i = false) (v : View) : Acts v (exec i) := by
  let f (k : Fin 5) : F32 := v.bank.op k
  cases i with
  | nop | engBegin | engEnd | engSetCallback | engReturn => cases hi
  | paccSetFreq u => exact .ofUnit Units.pacc fun a h => .quiet (.pacc h (.setFreq (f 0)))
  | paccSetSr u => exact .ofUnit Units.pacc fun a h => .quiet (.pacc h (.setSr (f 0)))
  | paccSetPhase u =>
    exact .ofUnit Units.pacc fun a h => .quiet (.pacc h (.setPhase (asF64 (f 0) (f 1))))
  | paccTick u => exact .ofUnit Units.pacc fun a h => .process [(paccTick a).2.1] (.pacc h .tick)
  | paccGet u => exact .ofUnit Units.pacc fun a h => .answer _
  | oscSetFreq u => exact .ofUnit Units.osc fun o h => .quiet (.osc h (.acc (.setFreq (f 0))))
  | oscSetSr u => exact .ofUnit Units.osc fun o h => .quiet (.osc h (.acc (.setSr (f 0))))
  | oscSetPhase u =>
    exact .ofUnit Units.osc fun o h => .quiet (.osc h (.acc (.setPhase (asF64 (f 0) (f 1)))))
  | oscSetAmp u => exact .ofUnit Units.osc fun o h => .quiet (.osc h (.amp (f 0)))
  | oscSetTable u sel =>
    exact .ofUnit Units.osc fun o h => .ofSelector (tableOf ·.nTables sel) fun t ht =>
      .quiet (.osc h (.table t (tableOf_eq_some ht)))
  | oscProcess u =>
    exact .ofUnit Units.osc fun o h => .process
      [mulF32 (wtInterp v.cfg o.table.toNat
        (mulF32 (paccTick o.acc).2.1 (intToF32 v.cfg.tableSize))) o.amp, (paccTick o.acc).2.1]
      (.osc h (.acc .tick))
  | oscGet u => exact .ofUnit Units.osc fun o h => .answer _
  | onepoleSetCutoff u => exact .ofUnit Units.onepole fun o h => .quiet (.onepole h (.setCutoff (f 0)))
  | onepoleSetSr u => exact .ofUnit Units.onepole fun o h => .quiet (.onepole h (.setSr (f 0)))
  | onepoleSetMode u sel =>
    exact .ofUnit Units.onepole fun o h => .ofSelector (fun _ => onePoleModeOf sel) fun m _ =>
      .quiet (.onepole h (.setMode m))
  | onepoleProcess u =>
    exact .ofUnit Units.onepole fun o h => .process
      [match o.mode with
        | .lowPass => onePoleTick o (f 0)
        | .highPass => subF32 (f 0) (onePoleTick o (f 0)),
        onePoleTick o (f 0), subF32 (f 0) (onePoleTick o (f 0))]
      (.onepole h (.history (onePoleTick o (f 0))))
  | onepoleReset u => exact .ofUnit Units.onepole fun o h => .quiet (.onepole h (.history zeroF32))
  | onepoleGet u => exact .ofUnit Units.onepole fun o h => .answer _
  | svfSetCutoff u => exact .ofUnit Units.svf fun w h => .quiet (.svf h (.setCutoff (f 0)))
  | svfSetRes u => exact .ofUnit Units.svf fun w h => .quiet (.svf h (.setRes (f 0)))
  | svfSetSr u => exact .ofUnit Units.svf fun w h => .quiet (.svf h (.setSr (f 0)))
  | svfProcess u =>
    exact .ofUnit Units.svf fun w h => .process
      [(svfTick w (f 0)).low, (svfTick w (f 0)).high, (svfTick w (f 0)).band, (svfTick w (f 0)).notch]
      (.svf h (.history (svfTick w (f 0)).low (svfTick w (f 0)).band (svfTick w (f 0)).high
        (svfTick w (f 0)).notch))
  | svfReset u =>
    exact .ofUnit Units.svf fun w h => .quiet (.svf h (.history zeroF32 zeroF32 zeroF32 zeroF32))
  | svfGet u => exact .ofUnit Units.svf fun w h => .answer _
  | bqSetCutoff u => exact .ofUnit Units.biquad fun b h => .quiet (.biquad h (.setCutoff (f 0)))
  | bqSetSr u => exact .ofUnit Units.biquad fun b h => .quiet (.biquad h (.setSr (f 0)))
  | bqSetType u sel =>
    exact .ofUnit Units.biquad fun b h => .ofSelector (fun _ => bqTypeOf sel) fun t _ =>
      .quiet (.biquad h (.setType t))
  | bqSetCoeffs u =>
    exact .ofUnit Units.biquad fun b h =>
      .quiet (.biquad h (.setCoeffs (f 0) (f 1) (f 2) (f 3) (f 4)))
  | bqProcess u =>
    exact .ofUnit Units.biquad fun b h => .process [bqOutput b (f 0)]
      (.biquad h (.history (f 0) b.x1 (bqOutput b (f 0)) b.y1))
  | bqReset u =>
    exact .ofUnit Units.biquad fun b h => .quiet (.biquad h (.history zeroF32 zeroF32 zeroF32 zeroF32))
  | bqGet u sel =>
    exact .ofUnit Units.biquad fun b h => .ofSelector (fun _ => pageOf sel) fun page _ => by
      cases page <;> exact .answer _
  | dcProcess u =>
    exact .ofUnit Units.dc fun d h => .process [dcOutput d (f 0)] (.dc h ⟨f 0, dcOutput d (f 0)⟩)
  | dcReset u => exact .ofUnit Units.dc fun d h => .quiet (.dc h ⟨zeroF32, zeroF32⟩)
  | dcGet u => exact .ofUnit Units.dc fun d h => .answer _
  | adsrSetAttack u => exact .ofUnit Units.adsr fun e h => .quiet (.adsr h (.setAttack (f 0)))
  | adsrSetDecay u => exact .ofUnit Units.adsr fun e h => .quiet (.adsr h (.setDecay (f 0)))
  | adsrSetSustain u => exact .ofUnit Units.adsr fun e h => .quiet (.adsr h (.setSustain (f 0)))
  | adsrSetRelease u => exact .ofUnit Units.adsr fun e h => .quiet (.adsr h (.setRelease (f 0)))
  | adsrSetSr u => exact .ofUnit Units.adsr fun e h => .quiet (.adsr h (.setSr (f 0)))
  | adsrNoteOn u => exact .ofUnit Units.adsr fun e h => .quiet (.adsr h .noteOn)
  | adsrNoteOff u =>
    refine .ofUnit Units.adsr fun e h => ?_
    by_cases hidle : e.stage = .idle
    · exact .quiet .same (by rintro _ rfl; rw [if_pos hidle]; rfl)
    · exact .quiet (.adsr h (.noteOff hidle)) (by rintro _ rfl; rw [if_neg hidle]; rfl)
  | adsrProcess u =>
    exact .ofUnit Units.adsr fun e h =>
      .process [(adsrTick e).level, (adsrTick e).stage.code] (.adsr h .tick)
  | adsrGet u sel =>
    exact .ofUnit Units.adsr fun e h => .ofSelector (fun _ => pageOf sel) fun page _ => by
      cases page <;> exact .answer _
  | arSetAttack u => exact .ofUnit Units.ar fun e h => .quiet (.ar h (.setAttack (f 0)))
  | arSetRelease u => exact .ofUnit Units.ar fun e h => .quiet (.ar h (.setRelease (f 0)))
  | arSetSr u => exact .ofUnit Units.ar fun e h => .quiet (.ar h (.setSr (f 0)))
  | arTrigger u => exact .ofUnit Units.ar fun e h => .quiet (.ar h .trigger)
  | arProcess u =>
    exact .ofUnit Units.ar fun e h => .process [(arTick e).level, (arTick e).stage.code] (.ar h .tick)
  | arGet u => exact .ofUnit Units.ar fun e h => .answer _
  | lfoSetFreq u => exact .ofUnit Units.lfo fun l h => .quiet (.lfo h (.acc (.setFreq (f 0))))
  | lfoSetSr u => exact .ofUnit Units.lfo fun l h => .quiet (.lfo h (.acc (.setSr (f 0))))
  | lfoSetShape u sel =>
    exact .ofUnit Units.lfo fun l h => .ofSelector (fun _ => lfoShapeOf sel) fun shape _ =>
      .quiet (.lfo h (.setShape shape))
  | lfoSetSeed u => exact .ofUnit Units.lfo fun l h => .quiet (.lfo h (.setSeed (f 0)))
  | lfoProcess u => exact .ofUnit Units.lfo fun l h => .process [(lfoTick l).out] (.lfo h .tick)
  | lfoGet u => exact .ofUnit Units.lfo fun l h => .answer _
  | wtLookup sel =>
    exact .ofSelector (tableOf ·.nTables sel) fun t _ => .process [wtInterp v.cfg t.toNat (f 0)] .same

/-! ### What an engine command does -/

/-- The five commands of the engine's kind (30_encoding.md R134). -/
theorem Instr.eq_of_isEngine {i : Instr} (hi : Instr.isEngine i = true) :
    i = .nop ∨ i = .engBegin ∨ i = .engEnd ∨ i = .engSetCallback ∨ i = .engReturn := by
  cases i <;> simp [Instr.isEngine, encode, Laws.word_fields] at hi ⊢

/-- What an engine command can do in the state `s` (44_engine.md R400, R403, R405 to R407; 60_exceptions.md
R461). -/
inductive EngineOp (s : State) : Instr → State → Prop
  | nop : EngineOp s .nop s
  | rejected (i : Instr) : EngineOp s i (s.reject .context)
  | beginStopped (hfg : s.inIsr = false) (hp : s.eng.phase = .stopped) :
      EngineOp s .engBegin (s.engBegin (s.opU32 0) (s.opU32 1) (s.opU32 2))
  | beginRunning (hfg : s.inIsr = false) (hp : s.eng.phase ≠ .stopped) :
      EngineOp s .engBegin (s.engineStop.engBegin (s.opU32 0) (s.opU32 1) (s.opU32 2))
  | endStopped (hfg : s.inIsr = false) (hp : s.eng.phase = .stopped) :
      EngineOp s .engEnd { s with eng := { s.eng with cb := 0#32 } }
  | endRunning (hfg : s.inIsr = false) (hp : s.eng.phase ≠ .stopped) : EngineOp s .engEnd s.engineStop
  | setCallback (hfg : s.inIsr = false) :
      EngineOp s .engSetCallback { s with eng := { s.eng with cb := s.opU32 0 } }
  | returns (hisr : s.inIsr = true) :
      EngineOp s .engReturn (s.returnFromHandler (quantize s.cfg.outBits (s.opF32 0)))

/-- A command legal in FG alone is rejected in ISR. -/
theorem EngineOp.ofFgOnly {s rule : State} {i : Instr} (h : s.inIsr = false → EngineOp s i rule) :
    EngineOp s i (inFgOnly s rule) := by
  cases hctx : s.inIsr with
  | true => rw [inFgOnly_of_isr _ hctx]; exact .rejected i
  | false => rw [inFgOnly_of_fg _ hctx]; exact h hctx

theorem EngineOp.ofIsrOnly {s rule : State} {i : Instr} (h : s.inIsr = true → EngineOp s i rule) :
    EngineOp s i (inIsrOnly s rule) := by
  cases hctx : s.inIsr with
  | true => rw [inIsrOnly_of_isr _ hctx]; exact h hctx
  | false => rw [inIsrOnly_of_fg _ hctx]; exact .rejected i

theorem exec_engineOp {i : Instr} (hi : Instr.isEngine i = true) {s t : State}
    (ht : exec i s = .next t) : EngineOp s i t := by
  rcases Instr.eq_of_isEngine hi with rfl | rfl | rfl | rfl | rfl <;> cases ht
  · exact .nop
  · refine .ofFgOnly fun hfg => ?_
    split
    next hp => exact .beginRunning hfg hp
    next hp => exact .beginStopped hfg (not_not.1 hp)
  · refine .ofFgOnly fun hfg => ?_
    split
    next hp => exact .endRunning hfg hp
    next hp => exact .endStopped hfg (not_not.1 hp)
  · exact .ofFgOnly .setCallback
  · exact .ofIsrOnly .returns

theorem State.engBegin_units (s : State) (rate pin cb : U32) : (s.engBegin rate pin cb).units = s.units := by
  rcases s.engBegin_cases rate pin cb with ⟨-, e⟩ | ⟨-, ⟨-, e⟩ | ⟨-, ⟨-, e⟩ | ⟨-, e⟩⟩⟩ <;> rw [e] <;> rfl

theorem State.engBegin_cfg (s : State) (rate pin cb : U32) : (s.engBegin rate pin cb).cfg = s.cfg := by
  rcases s.engBegin_cases rate pin cb with ⟨-, e⟩ | ⟨-, ⟨-, e⟩ | ⟨-, ⟨-, e⟩ | ⟨-, e⟩⟩⟩ <;> rw [e] <;> rfl

/-- An engine command touches no unit and no parameter. -/
theorem EngineOp.units_eq {s t : State} {i : Instr} (op : EngineOp s i t) : t.units = s.units := by
  cases op with
  | nop | rejected | endStopped | endRunning | setCallback => rfl
  | beginStopped | beginRunning => exact State.engBegin_units _ _ _ _
  | returns => exact State.rearm_units _

theorem EngineOp.cfg_eq {s t : State} {i : Instr} (op : EngineOp s i t) : t.cfg = s.cfg := by
  cases op with
  | nop | rejected | endStopped | endRunning | setCallback => rfl
  | beginStopped | beginRunning => exact State.engBegin_cfg _ _ _ _
  | returns => exact State.rearm_cfg _

/-- What a command can do: an engine command's effect, a rejection, or a write of units and results. -/
theorem exec_cases {i : Instr} {s t : State} (ht : exec i s = .next t) :
    EngineOp s i t ∨ (∃ c, t = s.reject c) ∨
    ∃ x vs, UnitsOp s.cfg.nTables s.units x ∧ t = (s.mapUnits fun _ => x).putRes vs := by
  cases hi : Instr.isEngine i with
  | true => exact .inl (exec_engineOp hi ht)
  | false =>
    cases exec_acts i hi s.view with
    | rejects c h => cases (h s rfl).symm.trans ht; exact .inr (.inl ⟨c, rfl⟩)
    | writes x vs op h => cases (h s rfl).symm.trans ht; exact .inr (.inr ⟨x, vs, op, rfl⟩)

/-! ### Invariants of the units, once -/

/-- What is said of the parameters and the units alone is kept by every step if each operation on a record and
reset keep it. -/
theorem step_keeps_of_unitsOp {Inv : State → Prop}
    (hcongr : ∀ s t : State, t.cfg = s.cfg → t.units = s.units → Inv s → Inv t)
    (hop : ∀ (s : State) (x : Units), UnitsOp s.cfg.nTables s.units x → Inv s → Inv (s.mapUnits fun _ => x))
    (hreset : ∀ s, Inv s → Inv (State.resetWith s.cfg s.units.counts)) {s t : State} (h : Inv s)
    (hs : step s = .next t) : Inv t := by
  refine step_keeps ?_ (fun s c => hcongr s _ rfl rfl) (fun s w => hcongr s _ rfl rfl)
    (fun s k w => hcongr s _ rfl rfl) (fun s => hcongr s _ s.takeExpiry_cfg s.takeExpiry_units)
    (fun s h => hcongr (State.resetWith s.cfg s.units.counts) _ rfl rfl (hreset s h))
    (fun s f => hcongr s _ rfl rfl) (fun s b => hcongr s _ rfl rfl) h hs
  intro i s t h ht
  rcases exec_cases ht with op | ⟨c, rfl⟩ | ⟨x, vs, op, rfl⟩
  · exact hcongr s t op.cfg_eq op.units_eq h
  · exact hcongr s _ rfl rfl h
  · exact hcongr (s.mapUnits fun _ => x) _ rfl rfl (hop s x op h)

end Sys2Proof.Machine
end

section
/-! PROOF. The two banks (10_state.md R57, 70_reset_and_hazards.md R520). -/

namespace Sys2Proof.Machine

/-! ### The other context's bank is never seen -/

theorem State.mapBank_of_fg {s : State} (h : s.inIsr = false) (f : Bank → Bank) :
    s.mapBank f = { s with fg := f s.fg } := by
  simp [State.mapBank, h]

theorem State.mapBank_of_isr {s : State} (h : s.inIsr = true) (f : Bank → Bank) :
    s.mapBank f = { s with isr := f s.isr } := by
  simp [State.mapBank, h]

theorem State.view_setIsr {s : State} (h : s.inIsr = false) (b : Bank) :
    State.view { s with isr := b } = s.view := by
  have h' : State.inIsr { s with isr := b } = false := h
  simp [State.view, State.bank, h, h']

theorem State.view_setFg {s : State} (h : s.inIsr = true) (b : Bank) :
    State.view { s with fg := b } = s.view := by
  have h' : State.inIsr { s with fg := b } = true := h
  simp [State.view, State.bank, h, h']

/-- What acts on a view alone does the same with another ISR bank, and leaves that bank there. -/
theorem Acts.setIsr {G : State → Host.Outcome State Fault Refusal} {s : State} (hG : Acts s.view G)
    (h : s.inIsr = false) (b : Bank) :
    G { s with isr := b } = mapNext (fun t => { t with isr := b }) (G s) := by
  have hv := State.view_setIsr h b
  cases hG with
  | rejects c hc => rw [hc _ hv, hc s rfl]; rfl
  | writes x vs _ hw =>
    have hx : (s.mapUnits fun _ => x).inIsr = false := h
    have hx' : (State.mapUnits { s with isr := b } fun _ => x).inIsr = false := h
    rw [hw _ hv, hw s rfl, State.putRes, State.putRes, State.mapBank_of_fg hx, State.mapBank_of_fg hx']
    rfl

/-- What acts on a view alone does the same with another FG bank, and leaves that bank there. -/
theorem Acts.setFg {G : State → Host.Outcome State Fault Refusal} {s : State} (hG : Acts s.view G)
    (h : s.inIsr = true) (b : Bank) :
    G { s with fg := b } = mapNext (fun t => { t with fg := b }) (G s) := by
  have hv := State.view_setFg h b
  cases hG with
  | rejects c hc => rw [hc _ hv, hc s rfl]; rfl
  | writes x vs _ hw =>
    have hx : (s.mapUnits fun _ => x).inIsr = true := h
    have hx' : (State.mapUnits { s with fg := b } fun _ => x).inIsr = true := h
    rw [hw _ hv, hw s rfl, State.putRes, State.putRes, State.mapBank_of_isr hx,
      State.mapBank_of_isr hx']
    rfl

/-- A begin neither reads nor writes the ISR bank. -/
theorem State.engBegin_setIsr (s : State) (b : Bank) (rate pin cb : U32) :
    State.engBegin { s with isr := b } rate pin cb = { s.engBegin rate pin cb with isr := b } := by
  rcases s.engBegin_cases rate pin cb with ⟨hr, e⟩ | ⟨hr, ⟨hc, e⟩ | ⟨hc, ⟨ha, e⟩ | ⟨ha, e⟩⟩⟩ <;>
    rw [e] <;> unfold State.engBegin
  · rw [if_pos hr]; rfl
  · rw [if_neg hr, ← Prod.mk.eta (p := Env.configure _ _ _), hc]; rfl
  · rw [if_neg hr, ← Prod.mk.eta (p := Env.configure _ _ _), hc]
    dsimp only
    rw [← Prod.mk.eta (p := Env.armOnce _ _), ha]; rfl
  · rw [if_neg hr, ← Prod.mk.eta (p := Env.configure _ _ _), hc]
    dsimp only
    rw [← Prod.mk.eta (p := Env.armOnce _ _), ha]; rfl

/-- A re-arm neither reads nor writes the FG bank. -/
theorem State.rearm_setFg (s : State) (b : Bank) :
    State.rearm { s with fg := b } = { s.rearm with fg := b } := by
  unfold State.rearm
  rcases s.env.armOnce s.eng.period with ⟨_ | _, e⟩ <;> rfl

/-- An engine command in FG does the same with another ISR bank, and leaves that bank there. -/
theorem exec_engine_setIsr {i : Instr} (hi : Instr.isEngine i = true) {s : State} (h : s.inIsr = false)
    (b : Bank) :
    exec i { s with isr := b } = mapNext (fun t => { t with isr := b }) (exec i s) := by
  have h' : State.inIsr { s with isr := b } = false := h
  have hop : ∀ k, State.opU32 { s with isr := b } k = s.opU32 k := fun k =>
    congrArg (fun v : View => v.bank.op k) (State.view_setIsr h b)
  rcases Instr.eq_of_isEngine hi with rfl | rfl | rfl | rfl | rfl
  · rfl
  · simp only [exec, execEngBegin, mapNext, inFgOnly_of_fg _ h, inFgOnly_of_fg _ h', hop]
    rw [← State.engBegin_setIsr]
    split <;> rfl
  · simp only [exec, execEngEnd, mapNext, inFgOnly_of_fg _ h, inFgOnly_of_fg _ h']
    split <;> rfl
  · simp only [exec, execEngSetCallback, mapNext, inFgOnly_of_fg _ h, inFgOnly_of_fg _ h', hop]
  · simp only [exec, execEngReturn, mapNext, inIsrOnly_of_fg _ h, inIsrOnly_of_fg _ h']
    rfl

/-- An engine command in ISR does the same with another FG bank, and leaves that bank there. -/
theorem exec_engine_setFg {i : Instr} (hi : Instr.isEngine i = true) {s : State} (h : s.inIsr = true)
    (b : Bank) :
    exec i { s with fg := b } = mapNext (fun t => { t with fg := b }) (exec i s) := by
  have h' : State.inIsr { s with fg := b } = true := h
  have hop : State.opF32 { s with fg := b } 0 = s.opF32 0 :=
    congrArg (fun v : View => v.bank.op 0) (State.view_setFg h b)
  rcases Instr.eq_of_isEngine hi with rfl | rfl | rfl | rfl | rfl
  · rfl
  · simp only [exec, execEngBegin, mapNext, inFgOnly_of_isr _ h, inFgOnly_of_isr _ h']
    rfl
  · simp only [exec, execEngEnd, mapNext, inFgOnly_of_isr _ h, inFgOnly_of_isr _ h']
    rfl
  · simp only [exec, execEngSetCallback, mapNext, inFgOnly_of_isr _ h, inFgOnly_of_isr _ h']
    rfl
  · simp only [exec, execEngReturn, mapNext, inIsrOnly_of_isr _ h, inIsrOnly_of_isr _ h', hop,
      State.returnFromHandler]
    rw [← State.rearm_setFg]
    rfl

/-- Settles O11: a unit command acts on its view alone, and so do the engine's five as far as banks go. -/
theorem theOtherBankIsNeverSeen : Obligations.TheOtherBankIsNeverSeen := by
  intro i s b
  cases hi : Instr.isEngine i with
  | false =>
    have hacts := exec_acts i hi s.view
    exact ⟨fun h => hacts.setIsr h b, fun h => hacts.setFg h b⟩
  | true => exact ⟨fun h => exec_engine_setIsr hi h b, fun h => exec_engine_setFg hi h b⟩

/-! ### A command writes the results of its own bank -/

/-- Between `s` and `t` the bank of the other context and the operand registers are unchanged. -/
def State.KeepsBanks (s t : State) : Prop :=
  (s.inIsr = false → t.isr = s.isr) ∧ (s.inIsr = true → t.fg = s.fg) ∧
  ∀ k : Fin 5, t.fg.op k = s.fg.op k ∧ t.isr.op k = s.isr.op k

theorem State.keepsBanks_of_eq {s t : State} (hfg : t.fg = s.fg) (hisr : t.isr = s.isr) :
    s.KeepsBanks t :=
  ⟨fun _ => hisr, fun _ => hfg, fun k => ⟨congrArg (·.op k) hfg, congrArg (·.op k) hisr⟩⟩

theorem State.keepsBanks_putRes {s t : State} (vs : List U32) (hctx : t.inIsr = s.inIsr)
    (hfg : t.fg = s.fg) (hisr : t.isr = s.isr) : s.KeepsBanks (t.putRes vs) := by
  refine ⟨fun h => ?_, fun h => ?_, fun k => hfg ▸ hisr ▸ t.putRes_op vs k⟩
  · rw [State.putRes, State.mapBank_isr, hctx, h, ← hisr]; rfl
  · rw [State.putRes, State.mapBank_fg, hctx, h, ← hfg]; rfl

theorem State.keepsBanks_engBegin {s t : State} (rate pin cb : U32) (hctx : s.inIsr = false)
    (hfg : t.fg = s.fg) (hisr : t.isr = s.isr) : s.KeepsBanks (t.engBegin rate pin cb) := by
  rcases t.engBegin_cases rate pin cb with ⟨-, e⟩ | ⟨-, ⟨-, e⟩ | ⟨-, ⟨-, e⟩ | ⟨-, e⟩⟩⟩ <;> rw [e] <;>
    exact State.keepsBanks_putRes _ hctx.symm hfg hisr

theorem EngineOp.keepsBanks {s t : State} {i : Instr} (op : EngineOp s i t) : s.KeepsBanks t := by
  cases op with
  | nop | rejected | endStopped | endRunning | setCallback => exact State.keepsBanks_of_eq rfl rfl
  | beginStopped hfg | beginRunning hfg => exact State.keepsBanks_engBegin _ _ _ hfg rfl rfl
  | returns =>
    exact State.keepsBanks_of_eq (by simp [State.returnFromHandler]) (by simp [State.returnFromHandler])

/-- Settles O10: a unit command writes results or is rejected, an engine command's banks are read off. -/
theorem commandsUseTheCurrentBank : Obligations.CommandsUseTheCurrentBank := by
  intro i s t ht
  rcases exec_cases ht with op | ⟨c, rfl⟩ | ⟨x, vs, -, rfl⟩
  · exact op.keepsBanks
  · exact State.keepsBanks_of_eq rfl rfl
  · exact State.keepsBanks_putRes vs rfl rfl rfl

end Sys2Proof.Machine
end

section
/-! PROOF. A word that decodes is its command's word (30_encoding.md R130, R135). -/

namespace Sys2Proof

/-- The command of a row of the opcode map with these fields. -/
def Shape.instr (u sel : U8) : Shape → Instr
  | .bare i => i
  | .unit f => f u
  | .unitSel f => f u sel
  | .sel f => f sel

/-- The word of a row's command: the fields that the row does not take are 0. -/
def Shape.word (opc u sel : U8) : Shape → U32
  | .bare _ => Sys2Proof.word opc 0#8 0#8
  | .unit _ => Sys2Proof.word opc u 0#8
  | .unitSel _ => Sys2Proof.word opc u sel
  | .sel _ => Sys2Proof.word opc 0#8 sel

theorem encode_of_opcodeMap {n : Nat} {shape : Shape} (h : opcodeMap n = some shape) (u sel : U8) :
    encode (shape.instr u sel) = shape.word (BitVec.ofNat 8 n) u sel := by
  unfold opcodeMap at h
  split at h <;> cases h <;> rfl

/-- A word decodes to the command of its row and fields, and then its other fields are 0. -/
theorem decode_eq_ok {w : U32} {i : Instr} (h : decode w = .ok i) :
    ∃ shape, opcodeMap (wordOpc w).toNat = some shape ∧ wordRsv w = 0#8 ∧
      i = shape.instr (wordUnit w) (wordSel w) ∧
      shape.word (wordOpc w) (wordUnit w) (wordSel w) = word (wordOpc w) (wordUnit w) (wordSel w) := by
  unfold decode at h
  split at h
  · cases h
  next shape hshape =>
    refine ⟨shape, hshape, ?_⟩
    cases shape <;> simp only at h
    case unitSel f =>
      split_ifs at h with hrsv
      cases h
      exact ⟨not_not.1 hrsv, rfl, rfl⟩
    all_goals
      split_ifs at h
      cases h
      simp_all [Shape.instr, Shape.word]

theorem word_of_fields (w : U32) :
    wordOpc w ++ wordUnit w ++ wordSel w ++ wordRsv w = w := by
  ext i hi
  simp only [wordOpc, wordUnit, wordSel, wordRsv, BitVec.getElem_append, BitVec.getElem_extractLsb']
  split_ifs <;> rw [← BitVec.getLsbD_eq_getElem] <;> congr 1 <;> omega

/-- No bit of a word that decodes goes unread. -/
theorem encode_of_decode {w : U32} {i : Instr} (h : decode w = .ok i) : encode i = w := by
  obtain ⟨shape, hshape, hrsv, rfl, hword⟩ := decode_eq_ok h
  rw [encode_of_opcodeMap hshape, BitVec.ofNat_toNat, BitVec.setWidth_eq, hword, word, ← hrsv,
    word_of_fields]

end Sys2Proof
end

section
/-! PROOF. The engine record (10_state.md R70) and the latch (R72) through a step. -/

namespace Sys2Proof.Machine

/-! ### The engine record's invariant (44_engine.md R401 to R403) -/

theorem period_toNat (r : U32) : (period r).toNat = (1000000 + r.toNat / 2) / r.toNat := by
  have hr := r.isLt
  have hle := Nat.div_le_self (1000000 + r.toNat / 2) r.toNat
  rw [period, BitVec.toNat_ofNat, Nat.mod_eq_of_lt (by omega)]

theorem EngState.ok_reset : EngState.reset.Ok :=
  ⟨fun _ => ⟨rfl, rfl, rfl⟩, fun h => absurd rfl h, nofun⟩

/-- A running engine stays right when it becomes ARMED. -/
theorem EngState.Ok.armed {e : EngState} (h : e.Ok) (hrun : e.phase ≠ .stopped) :
    EngState.Ok { e with phase := .armed } :=
  ⟨nofun, fun _ => h.2.1 hrun, nofun⟩

/-- Outside the handler the callback is free. -/
theorem EngState.Ok.withCallback {e : EngState} (h : e.Ok) (hp : e.phase ≠ .inHandler) (cb : U32) :
    EngState.Ok { e with cb := cb } :=
  ⟨h.1, h.2.1, fun h' => absurd h' hp⟩

theorem State.phase_ne_inHandler {s : State} (h : s.inIsr = false) : s.eng.phase ≠ .inHandler := by
  simpa [State.inIsr] using h

theorem State.phase_of_inIsr {s : State} (h : s.inIsr = true) : s.eng.phase = .inHandler := by
  simpa [State.inIsr] using h

theorem State.engOk_rearm {s : State} (h : s.eng.Ok) (hrun : s.eng.phase ≠ .stopped) :
    s.rearm.eng.Ok := by
  rcases s.rearm_cases with ⟨-, e⟩ | ⟨-, e⟩ <;> rw [e]
  · exact h.armed hrun
  · exact EngState.ok_reset

theorem State.engOk_takeExpiry {s : State} (h : s.eng.Ok) : s.takeExpiry.eng.Ok := by
  rcases s.takeExpiry_cases with ⟨-, e⟩ | ⟨hp, -, e⟩ | ⟨hp, hcb, e⟩ <;> rw [e]
  · exact h
  · exact State.engOk_rearm (s := s.writeNeutral) h (by rw [State.writeNeutral_eng, hp]; decide)
  · exact ⟨nofun, fun _ => h.2.1 (by rw [hp]; decide), fun _ => hcb⟩

/-- A begin leaves a stopped engine, or an armed one with a legal rate and its period. -/
theorem State.engOk_engBegin (s : State) (rate pin cb : U32) : (s.engBegin rate pin cb).eng.Ok := by
  rcases s.engBegin_cases rate pin cb with ⟨-, e⟩ | ⟨hr, ⟨-, e⟩ | ⟨-, ⟨-, e⟩ | ⟨-, e⟩⟩⟩ <;> rw [e]
  · exact EngState.ok_reset
  · exact EngState.ok_reset
  · exact EngState.ok_reset
  · have hlegal : 1 ≤ rate.toNat ∧ rate.toNat ≤ 2000000 := by
      rw [not_or, BitVec.not_lt] at hr
      refine ⟨?_, BitVec.le_def.1 hr.2⟩
      have := mt BitVec.eq_of_toNat_eq hr.1
      exact Nat.one_le_iff_ne_zero.2 this
    exact ⟨nofun, fun _ => ⟨hlegal.1, hlegal.2, period_toNat rate⟩, nofun⟩

theorem EngineOp.engOk {s t : State} {i : Instr} (op : EngineOp s i t) (h : s.eng.Ok) : t.eng.Ok := by
  cases op with
  | nop | rejected => exact h
  | beginStopped | beginRunning => exact State.engOk_engBegin _ _ _ _
  | endStopped hfg | setCallback hfg => exact h.withCallback (State.phase_ne_inHandler hfg) _
  | endRunning => exact EngState.ok_reset
  | returns hisr =>
    exact State.engOk_rearm (s := s.mapEnv _) h
      (by rw [State.mapEnv_eng, State.phase_of_inIsr hisr]; decide)

/-- Settles O54: unit commands leave the engine, and each of the engine's effects keeps the invariant. -/
theorem engineRecordInvariant : Obligations.EngineRecordInvariant := by
  intro s t h hs
  refine step_keeps (Inv := fun s => s.eng.Ok) ?_ (fun _ _ h => h) (fun _ _ h => h) (fun _ _ _ h => h)
    (fun _ h => State.engOk_takeExpiry h) (fun _ _ => EngState.ok_reset) (fun _ _ h => h)
    (fun _ _ h => h) h hs
  intro i s t h ht
  rcases exec_cases ht with op | ⟨c, rfl⟩ | ⟨x, vs, -, rfl⟩
  · exact op.engOk h
  · exact h
  · exact h

/-! ### The latch (10_state.md R72) -/

theorem State.engBegin_expiryPending (s : State) (rate pin cb : U32) :
    (s.engBegin rate pin cb).expiryPending = s.expiryPending := by
  rcases s.engBegin_cases rate pin cb with ⟨-, e⟩ | ⟨-, ⟨-, e⟩ | ⟨-, ⟨-, e⟩ | ⟨-, e⟩⟩⟩ <;> rw [e] <;> rfl

/-- A command leaves the latch, but for one that stops an armed engine and so drops what is latched
(44_engine.md R404). -/
theorem exec_expiryPending {i : Instr} {s t : State} (ht : exec i s = .next t) :
    t.expiryPending = s.expiryPending ∨
    (t.expiryPending = false ∧ s.eng.phase = .armed ∧ (i = .engBegin ∨ i = .engEnd)) := by
  have harmed : s.inIsr = false → s.eng.phase ≠ .stopped → s.eng.phase = .armed := by
    intro hfg hp
    have := State.phase_ne_inHandler hfg
    cases hphase : s.eng.phase <;> simp_all
  rcases exec_cases ht with op | ⟨c, rfl⟩ | ⟨x, vs, -, rfl⟩
  · cases op with
    | nop | rejected | endStopped | setCallback => exact .inl rfl
    | beginStopped => exact .inl (State.engBegin_expiryPending _ _ _ _)
    | beginRunning hfg hp =>
      exact .inr ⟨State.engBegin_expiryPending _ _ _ _, harmed hfg hp, .inl rfl⟩
    | endRunning hfg hp => exact .inr ⟨rfl, harmed hfg hp, .inr rfl⟩
    | returns => exact .inl (by simp [State.returnFromHandler])
  · exact .inl rfl
  · exact .inl rfl

/-- The access is a write of `ENG_BEGIN` or `ENG_END` to CMD. -/
def BusAccess.StopsEngine (base : Nat) (a : BusAccess) : Prop :=
  a.addr = base + 0x18 ∧ (a.write = some (encode .engBegin) ∨ a.write = some (encode .engEnd))

theorem addr_of_windowOffset {base addr off : Nat} (h : windowOffset base addr = some off) :
    addr = base + off := by
  unfold windowOffset at h
  split at h <;> cases h
  omega

theorem registerAt_eq_cmd {off : Nat} (h : registerAt off = .cmd) : off = 0x18 := by
  unfold registerAt at h
  split at h <;> cases h
  rfl

theorem command_expiryPending {w : U32} {s t : State} (ht : command w s = .next t) :
    t.expiryPending = s.expiryPending ∨
    (t.expiryPending = false ∧ s.eng.phase = .armed ∧ (w = encode .engBegin ∨ w = encode .engEnd)) := by
  unfold command at ht
  split at ht
  next i hdec =>
    refine (exec_expiryPending ht).imp_right fun ⟨hf, hp, hi⟩ => ⟨hf, hp, ?_⟩
    rw [← encode_of_decode hdec]
    exact hi.imp (congrArg encode) (congrArg encode)
  next c _ => cases ht; exact .inl rfl

/-- A bus access leaves the latch, but for a command that stops an armed engine. -/
theorem busAccess_expiryPending {a : BusAccess} {s t : State} (ht : busAccess a s = .next t) :
    t.expiryPending = s.expiryPending ∨
    (t.expiryPending = false ∧ s.eng.phase = .armed ∧ a.StopsEngine s.cfg.baseAddr) := by
  rcases busAccess_cases a s with ⟨-, e⟩ | ⟨_, -, -, e⟩ | ⟨off, w, hoff, -, hw, e⟩ | ⟨_, -, -, -, e⟩ <;>
    rw [e] at ht
  · cases ht; exact .inl rfl
  · cases ht
  · rcases writeReg_cases s w (registerAt off) with e | ⟨-, e⟩ | ⟨hcmd, e⟩ | ⟨k, -, e⟩ <;> rw [e] at ht
    · cases ht; exact .inl rfl
    · cases ht; exact .inl rfl
    · refine (command_expiryPending ht).imp_right fun ⟨hf, hp, hi⟩ => ⟨hf, hp, ?_, ?_⟩
      · rw [addr_of_windowOffset hoff, registerAt_eq_cmd hcmd]
      · rw [hw]; exact hi.imp (congrArg some) (congrArg some)
    · cases ht; exact .inl rfl
  · cases ht; exact .inl rfl

/-- An input that is taken leaves the latch, but for a command that stops an armed engine. -/
theorem accept_expiryPending {i : Input} {s t : State} (ht : accept i s = .next t) :
    t.expiryPending = s.expiryPending ∨
    (t.expiryPending = false ∧ s.eng.phase = .armed ∧ ∃ a, i = .bus a ∧ a.StopsEngine s.cfg.baseAddr) := by
  cases i with
  | bus a =>
    exact (busAccess_expiryPending ht).imp_right fun ⟨hf, hp, ha⟩ => ⟨hf, hp, a, rfl, ha⟩
  | expire => cases ht; exact .inl (by simp)

/-- Settles O30: each of the three arrivals around a handling, which leaves the latch, and around an input. -/
theorem anExpiryDuringAStepIsLatched : Obligations.AnExpiryDuringAStepIsLatched := by
  intro s t g hturn hwork hs
  cases hp : s.expiryPending with
  | true =>
    rw [step_of_pending hturn hp] at hs
    rcases during_cases hs with ⟨rfl, e⟩ | ⟨rfl, e⟩ | ⟨rfl, u, -, rfl⟩
    · cases e
      exact ⟨fun _ => by simp, nofun, nofun⟩
    · cases e
      exact ⟨nofun, nofun, fun _ => .inl (by simp)⟩
    · exact ⟨nofun, fun _ => rfl, nofun⟩
  | false =>
    obtain ⟨i, rest, hi⟩ := List.exists_cons_of_ne_nil (hwork.resolve_left (by simp [hp]))
    rw [step_of_input hturn hp hi] at hs
    rcases during_cases hs with ⟨rfl, e⟩ | ⟨rfl, e⟩ | ⟨rfl, u, -, rfl⟩
    · refine ⟨fun _ => ?_, nofun, nofun⟩
      exact (accept_expiryPending e).elim (fun h => h.trans hp) (fun h => h.1)
    · refine ⟨nofun, nofun, fun _ => (accept_expiryPending e).imp_right ?_⟩
      rintro ⟨-, hphase, a, rfl, haddr, hcmd⟩
      exact ⟨rfl, hphase, a, rest, hi, haddr, hcmd⟩
    · exact ⟨nofun, fun _ => rfl, nofun⟩

end Sys2Proof.Machine
end

section
/-! PROOF. The ranges of the stored parameters (10_state.md R60, R62 to R69): what each record operation
keeps, and so every step. -/

namespace Sys2Proof.Machine

/-! ### Values between bounds -/

namespace Fp

theorem finite_iff_units {f : Fmt} {x : Fp} :
    x.mag < f.infMag ↔ (x.units f).natAbs < magUnits f f.infMag := by
  rw [natAbs_units, magUnits_lt_iff]

/-- A value between two finite ones is finite. -/
theorem finite_of_between {f : Fmt} {lo x hi : Fp} (hlo : lo.mag < f.infMag) (hhi : hi.mag < f.infMag)
    (h₁ : lo.units f ≤ x.units f) (h₂ : x.units f ≤ hi.units f) : x.mag < f.infMag := by
  rw [finite_iff_units] at *
  omega

theorem eq_ofUnits_of_isRounded {f : Fmt} {r : Fp} {z : Int} {d : Nat} {b : Bool}
    (h : IsRounded f r z d b) : r = ofUnits f z d b := by
  obtain ⟨n, m⟩ := r
  obtain ⟨hmag, hneg⟩ := h
  simp only at hmag hneg
  rw [hmag, hneg, ofUnits]

/-- A rounded value keeps an upper bound of the exact one that is a value of the format. -/
theorem units_le_of_isRounded {f : Fmt} {r y : Fp} {z : Int} {d : Nat} {b : Bool}
    (h : IsRounded f r z d b) (hd : 0 < d) (hy : y.Num f) (hz : z ≤ y.units f * d) :
    r.units f ≤ y.units f := by
  rw [eq_ofUnits_of_isRounded h]
  exact units_ofUnits_le hd hy hz

/-- A rounded value keeps a lower bound of the exact one that is a value of the format. -/
theorem le_units_of_isRounded {f : Fmt} {r y : Fp} {z : Int} {d : Nat} {b : Bool}
    (h : IsRounded f r z d b) (hd : 0 < d) (hy : y.Num f) (hz : y.units f * d ≤ z) :
    y.units f ≤ r.units f := by
  rw [eq_ofUnits_of_isRounded h]
  exact le_units_ofUnits hd hy hz

end Fp

theorem leF32_iff {x y : F32} :
    leF32 x y = true ↔ (unpack32 x).Num fmt32 ∧ (unpack32 y).Num fmt32 ∧
      (unpack32 x).units fmt32 ≤ (unpack32 y).units fmt32 := by
  refine ⟨fun h => ?_, fun ⟨hx, hy, h⟩ => (Fp.le_iff hx hy).2 h⟩
  obtain ⟨hx, hy⟩ := Fp.num_of_le h
  exact ⟨hx, hy, (Fp.le_iff hx hy).1 h⟩

/-! ### Sample rates and Nyquist (10_state.md R60, 42_filters.md R246) -/

theorem units_unitSrMin : (unpack32 Config.unitSrMin).units fmt32 = 1000 * 2 ^ 149 := by decide
theorem units_cutoffMinHz : (unpack32 Config.cutoffMinHz).units fmt32 = 20 * 2 ^ 149 := by decide
theorem units_halfF32 : (unpack32 halfF32).units fmt32 = 2 ^ 148 := by decide

theorem clampSr_ok (v : F32) : SrOk (clampSr v) := clampf_mem (by decide)

/-- A legal sample rate as a number of units. -/
theorem SrOk.units {sr : F32} (h : SrOk sr) :
    (unpack32 sr).mag < fmt32.infMag ∧ 1000 * 2 ^ 149 ≤ (unpack32 sr).units fmt32 := by
  obtain ⟨-, -, hlo⟩ := leF32_iff.1 h.1
  obtain ⟨-, -, hhi⟩ := leF32_iff.1 h.2
  exact ⟨Fp.finite_of_between (by decide) (by decide) hlo hhi, units_unitSrMin ▸ hlo⟩

/-- Nyquist is the exact half of the rate, rounded. -/
theorem isRounded_nyquist {sr : F32} (h : SrOk sr) :
    IsRounded fmt32 (unpack32 (nyquist sr)) ((unpack32 sr).units fmt32 * 2 ^ 148) (2 ^ 149)
      ((unpack32 sr).neg != (unpack32 halfF32).neg) := by
  have hmul := Fp.isRounded_mul (y := unpack32 halfF32) h.units.1 (by decide)
  rw [units_halfF32, unitLog32] at hmul
  exact isRounded_pack32 hmul

theorem nyquist_num {sr : F32} (h : SrOk sr) : (unpack32 (nyquist sr)).Num fmt32 :=
  Fp.isRounded_num (isRounded_nyquist h)

theorem cutoffMinHz_le_nyquist {sr : F32} (h : SrOk sr) :
    leF32 Config.cutoffMinHz (nyquist sr) = true := by
  have hnum : (unpack32 Config.cutoffMinHz).Num fmt32 := by decide
  refine leF32_iff.2 ⟨hnum, nyquist_num h,
    Fp.le_units_of_isRounded (isRounded_nyquist h) (by positivity) hnum ?_⟩
  have hsr := h.units.2
  rw [units_cutoffMinHz]
  push_cast
  linarith

theorem clampCutoff_ok (v : F32) {sr : F32} (h : SrOk sr) : CutoffOk (clampCutoff v sr) sr :=
  clampf_mem (cutoffMinHz_le_nyquist h)

theorem unitInterval_clampf (v : F32) : UnitInterval (clampf v zeroF32 oneF32) := clampf_mem (by decide)

theorem timeFloor_ok (v : F32) : TimeOk (timeFloor v) := by
  have hmin : isNaN32 Config.envTimeMin = false := by decide
  unfold timeFloor
  split
  · exact leF32_refl hmin
  next h =>
    rw [Bool.or_eq_true, not_or, Bool.not_eq_true, Bool.not_eq_true] at h
    exact leF32_of_not_ltF32 h.1 hmin h.2

/-! ### What the operations keep -/

theorem OscOp.keeps_range {n : Nat} {o o' : OscState} (op : OscOp n o o')
    (h : o.table.toNat < n ∧ UnitInterval o.amp) : o'.table.toNat < n ∧ UnitInterval o'.amp := by
  cases op with
  | acc => exact h
  | amp v => exact ⟨h.1, unitInterval_clampf v⟩
  | table t ht => exact ⟨ht, h.2⟩

/-- A word that is its own shift is 0. -/
theorem eq_zero_of_eq_shiftLeft {w : U32} {k : Nat} (hk : 0 < k) (h : w = w <<< k) : w = 0#32 := by
  have hbit : ∀ i, w.getLsbD i = false := by
    intro i
    induction i using Nat.strong_induction_on with
    | _ i ih =>
      rw [h, BitVec.getLsbD_shiftLeft]
      by_cases hik : i < k
      · simp [hik]
      · simp [ih (i - k) (by omega)]
  exact BitVec.eq_of_getLsbD_eq fun i _ => by simp [hbit]

theorem eq_zero_of_eq_ushiftRight {w : U32} {k : Nat} (hk : 0 < k) (h : w = w >>> k) : w = 0#32 := by
  have hdiv : w.toNat = w.toNat / 2 ^ k := by
    conv_lhs => rw [h, BitVec.toNat_ushiftRight, Nat.shiftRight_eq_div_pow]
  by_contra hne
  have hpos : 0 < w.toNat := Nat.pos_of_ne_zero fun h0 => hne (BitVec.eq_of_toNat_eq h0)
  exact absurd hdiv (Nat.div_lt_self hpos (Nat.one_lt_two_pow hk.ne')).ne'

/-- The generator never reaches 0 (43_envelopes.md R360). -/
theorem xorShift_ne_zero {w : U32} (h : w ≠ 0#32) : xorShift w ≠ 0#32 := by
  have hleft : ∀ {x : U32} {k : Nat}, 0 < k → x ≠ 0#32 → x ^^^ (x <<< k) ≠ 0#32 :=
    fun hk hx h0 => hx (eq_zero_of_eq_shiftLeft hk (BitVec.xor_eq_zero_iff.1 h0))
  have hright : ∀ {x : U32} {k : Nat}, 0 < k → x ≠ 0#32 → x ^^^ (x >>> k) ≠ 0#32 :=
    fun hk hx h0 => hx (eq_zero_of_eq_ushiftRight hk (BitVec.xor_eq_zero_iff.1 h0))
  exact hleft (by decide) (hright (by decide) (hleft (by decide) h))

theorem lfoTick_rng (l : LfoState) : (lfoTick l).rng = l.rng ∨ (lfoTick l).rng = xorShift l.rng := by
  unfold lfoTick
  cases l.shape
  case sampleHold => dsimp only; split <;> simp
  all_goals simp

theorem LfoOp.keeps_rng {l l' : LfoState} (op : LfoOp l l') (h : l.rng ≠ 0#32) : l'.rng ≠ 0#32 := by
  cases op with
  | acc | setShape => exact h
  | setSeed w =>
    dsimp only
    split
    · decide
    · assumption
  | tick =>
    rcases lfoTick_rng l with e | e <;> rw [e]
    · exact h
    · exact xorShift_ne_zero h

theorem OnePoleOp.keeps_range {o o' : OnePoleState} (op : OnePoleOp o o')
    (h : SrOk o.sr ∧ CutoffOk o.cutoff o.sr) : SrOk o'.sr ∧ CutoffOk o'.cutoff o'.sr := by
  cases op with
  | setCutoff v => exact ⟨h.1, clampCutoff_ok v h.1⟩
  | setSr v => exact ⟨clampSr_ok v, clampCutoff_ok _ (clampSr_ok v)⟩
  | setMode | history => exact h

/-- The derived coefficients are clamped to their ranges (42_filters.md R260). -/
theorem SvfState.ok_derive {f : SvfState} (hsr : SrOk f.sr) (hcut : CutoffOk f.cutoff f.sr)
    (hmin : leF32 Config.svfResMin f.res = true) (hmax : leF32 f.res Config.svfResMax = true) :
    f.derive.Ok := by
  have hf : leF32 Config.svfFMin f.derive.f = true ∧ leF32 f.derive.f Config.svfFMax = true :=
    clampf_mem (by decide)
  have hq : leF32 Config.svfQMin f.derive.q = true ∧ leF32 f.derive.q Config.svfQMax = true :=
    clampf_mem (by decide)
  exact ⟨hsr, hcut, hmin, hmax, hf.1, hf.2, hq.1, hq.2⟩

theorem SvfOp.keeps_ok {f f' : SvfState} (op : SvfOp f f') (h : f.Ok) : f'.Ok := by
  obtain ⟨hsr, hcut, hmin, hmax, -⟩ := id h
  cases op with
  | setCutoff v => exact SvfState.ok_derive hsr (clampCutoff_ok v hsr) hmin hmax
  | setRes v =>
    obtain ⟨hmin', hmax'⟩ := clampf_mem (v := v)
      (show leF32 Config.svfResMin Config.svfResMax = true by decide)
    exact SvfState.ok_derive hsr hcut hmin' hmax'
  | setSr v => exact SvfState.ok_derive (clampSr_ok v) (clampCutoff_ok _ (clampSr_ok v)) hmin hmax
  | history => exact h

/-- The derivation writes coefficients alone (42_filters.md R280). -/
theorem BiquadState.derive_keeps (b : BiquadState) :
    b.derive.type = b.type ∧ b.derive.cutoff = b.cutoff ∧ b.derive.sr = b.sr := by
  unfold BiquadState.derive bqCoeffs
  dsimp only
  split <;> exact ⟨rfl, rfl, rfl⟩

theorem BiquadOp.keeps_range {b b' : BiquadState} (op : BiquadOp b b')
    (h : SrOk b.sr ∧ CutoffOk b.cutoff b.sr) : SrOk b'.sr ∧ CutoffOk b'.cutoff b'.sr := by
  have hderive : ∀ b : BiquadState, SrOk b.sr ∧ CutoffOk b.cutoff b.sr →
      SrOk b.derive.sr ∧ CutoffOk b.derive.cutoff b.derive.sr := by
    intro b h
    obtain ⟨-, hcut, hsr⟩ := b.derive_keeps
    rwa [hcut, hsr]
  cases op with
  | setCutoff v => exact hderive _ ⟨h.1, clampCutoff_ok v h.1⟩
  | setSr v => exact hderive _ ⟨clampSr_ok v, clampCutoff_ok _ (clampSr_ok v)⟩
  | setType => exact hderive _ h
  | setCoeffs | history => exact h

/-- The parameters of an ADSR envelope are in range. -/
abbrev AdsrState.ParamsOk (e : AdsrState) : Prop :=
  SrOk e.sr ∧ TimeOk e.attack ∧ TimeOk e.decay ∧ TimeOk e.release ∧ UnitInterval e.sustain

/-- A tick keeps the parameters and what is derived from them. -/
theorem adsrTick_keeps (e : AdsrState) :
    adsrTick e = { e with
      stage := (adsrTick e).stage, level := (adsrTick e).level, target := (adsrTick e).target,
      inc := (adsrTick e).inc } := by
  unfold adsrTick
  cases e.stage <;> dsimp only <;> split <;> rfl

theorem AdsrOp.keeps_range {e e' : AdsrState} (op : AdsrOp e e') (h : e.ParamsOk) : e'.ParamsOk := by
  obtain ⟨hsr, hattack, hdecay, hrelease, hsustain⟩ := id h
  cases op with
  | setAttack v => exact ⟨hsr, timeFloor_ok v, hdecay, hrelease, hsustain⟩
  | setDecay v => exact ⟨hsr, hattack, timeFloor_ok v, hrelease, hsustain⟩
  | setSustain v => exact ⟨hsr, hattack, hdecay, hrelease, unitInterval_clampf v⟩
  | setRelease v => exact ⟨hsr, hattack, hdecay, timeFloor_ok v, hsustain⟩
  | setSr v => exact ⟨clampSr_ok v, hattack, hdecay, hrelease, hsustain⟩
  | noteOn | noteOff => exact h
  | tick => rw [adsrTick_keeps]; exact h

/-- The parameters of an AR envelope are in range. -/
abbrev ArState.ParamsOk (e : ArState) : Prop := SrOk e.sr ∧ TimeOk e.attack ∧ TimeOk e.release

theorem arTick_keeps (e : ArState) :
    arTick e = { e with
      stage := (arTick e).stage, level := (arTick e).level, inc := (arTick e).inc } := by
  unfold arTick
  cases e.stage <;> dsimp only <;> split <;> rfl

theorem ArOp.keeps_range {e e' : ArState} (op : ArOp e e') (h : e.ParamsOk) : e'.ParamsOk := by
  obtain ⟨hsr, hattack, hrelease⟩ := id h
  cases op with
  | setAttack v => exact ⟨hsr, timeFloor_ok v, hrelease⟩
  | setRelease v => exact ⟨hsr, hattack, timeFloor_ok v⟩
  | setSr v => exact ⟨clampSr_ok v, hattack, hrelease⟩
  | trigger => exact h
  | tick => rw [arTick_keeps]; exact h

/-- What an operation on one record keeps holds of all records after it. -/
theorem forall_mem_set {α : Type} {P : α → Prop} {l : List α} {k : Nat} {a a' : α} (h : ∀ x ∈ l, P x)
    (hk : l[k]? = some a) (hop : P a → P a') : ∀ x ∈ l.set k a', P x := by
  intro x hx
  rcases List.mem_or_eq_of_mem_set hx with hx | rfl
  · exact h x hx
  · exact hop (h a (List.mem_of_getElem? hk))

theorem UnitsOp.oscillatorsOk {s : State} {x : Units} (op : UnitsOp s.cfg.nTables s.units x)
    (h : s.OscillatorsOk) : (s.mapUnits fun _ => x).OscillatorsOk := by
  cases op with
  | osc hk op => exact ⟨forall_mem_set h.1 hk op.keeps_range, h.2⟩
  | lfo hk op => exact ⟨h.1, forall_mem_set h.2 hk op.keeps_rng⟩
  | same | pacc | onepole | svf | biquad | dc | adsr | ar => exact h

theorem UnitsOp.parametersOk {s : State} {x : Units} (op : UnitsOp s.cfg.nTables s.units x)
    (h : s.ParametersOk) : (s.mapUnits fun _ => x).ParametersOk := by
  obtain ⟨honepole, hsvf, hbiquad, hadsr, har⟩ := id h
  cases op with
  | onepole hk op => exact ⟨forall_mem_set honepole hk op.keeps_range, hsvf, hbiquad, hadsr, har⟩
  | svf hk op => exact ⟨honepole, forall_mem_set hsvf hk op.keeps_ok, hbiquad, hadsr, har⟩
  | biquad hk op => exact ⟨honepole, hsvf, forall_mem_set hbiquad hk op.keeps_range, hadsr, har⟩
  | adsr hk op => exact ⟨honepole, hsvf, hbiquad, forall_mem_set hadsr hk op.keeps_range, har⟩
  | ar hk op => exact ⟨honepole, hsvf, hbiquad, hadsr, forall_mem_set har hk op.keeps_range⟩
  | same | pacc | osc | dc | lfo => exact h

/-! ### Reset (10_state.md R76) -/

/-- Every unit after reset is its kind's reset record. -/
theorem forall_mem_replicate {α : Type} {P : α → Prop} (n : Nat) {a : α} (h : P a) :
    ∀ x ∈ List.replicate n a, P x := fun _ hx => List.eq_of_mem_replicate hx ▸ h

theorem State.oscillatorsOk_resetWith {p : Config.Params} {n : Config.Counts}
    (h : n.osc ≠ 0 → 0 < p.nTables) : (State.resetWith p n).OscillatorsOk := by
  refine ⟨fun o ho => ?_, forall_mem_replicate _ (by decide)⟩
  obtain ⟨hn, rfl⟩ := List.mem_replicate.1 ho
  exact ⟨h hn, by decide⟩

theorem SvfState.ok_reset : SvfState.reset.Ok :=
  SvfState.ok_derive (by decide) (by decide) (by decide) (by decide)

theorem State.parametersOk_resetWith (p : Config.Params) (n : Config.Counts) :
    (State.resetWith p n).ParametersOk := by
  have hfilter : SrOk Config.srDefault ∧ CutoffOk Config.cutoffDefault Config.srDefault := by decide
  exact ⟨forall_mem_replicate _ hfilter, forall_mem_replicate _ SvfState.ok_reset,
    forall_mem_replicate _ hfilter, forall_mem_replicate _ (by decide),
    forall_mem_replicate _ (by decide)⟩

/-- An oscillator that names a table shows that there is one. -/
theorem State.OscillatorsOk.nTables_pos {s : State} (h : s.OscillatorsOk)
    (hn : s.units.counts.osc ≠ 0) : 0 < s.cfg.nTables := by
  obtain ⟨o, ho⟩ := List.exists_mem_of_length_pos (Nat.pos_of_ne_zero hn)
  exact Nat.zero_lt_of_lt (h.1 o ho).1

/-- Settles O56: every operation on a record clamps what it stores, and the rest of the state is not in it. -/
theorem parameterInvariant : Obligations.ParameterInvariant := by
  intro s t h hs
  refine step_keeps_of_unitsOp (Inv := fun s => s.OscillatorsOk ∧ s.ParametersOk) ?_ ?_ ?_ h hs
  · intro s t hcfg hunits h
    unfold State.OscillatorsOk State.ParametersOk
    rwa [hcfg, hunits]
  · exact fun s x op h => ⟨op.oscillatorsOk h.1, op.parametersOk h.2⟩
  · exact fun s h =>
      ⟨State.oscillatorsOk_resetWith h.1.nTables_pos, State.parametersOk_resetWith _ _⟩

end Sys2Proof.Machine
end

section
/-! PROOF. The ranges of a phase accumulator (10_state.md R61): what each of its operations keeps, and so
every step. -/

namespace Sys2Proof.Machine

/-! ### Order and constants of binary64 -/

theorem leF64_iff {x y : F64} :
    leF64 x y = true ↔ (unpack64 x).Num fmt64 ∧ (unpack64 y).Num fmt64 ∧
      (unpack64 x).units fmt64 ≤ (unpack64 y).units fmt64 := by
  refine ⟨fun h => ?_, fun ⟨hx, hy, h⟩ => (Fp.le_iff hx hy).2 h⟩
  obtain ⟨hx, hy⟩ := Fp.num_of_le h
  exact ⟨hx, hy, (Fp.le_iff hx hy).1 h⟩

theorem ltF64_iff {x y : F64} :
    ltF64 x y = true ↔ (unpack64 x).Num fmt64 ∧ (unpack64 y).Num fmt64 ∧
      (unpack64 x).units fmt64 < (unpack64 y).units fmt64 := by
  refine ⟨fun h => ?_, fun ⟨hx, hy, h⟩ => (Fp.lt_iff hx hy).2 h⟩
  obtain ⟨hx, hy⟩ := Fp.num_of_lt h
  exact ⟨hx, hy, (Fp.lt_iff hx hy).1 h⟩

/-- 0.5 in binary64. -/
abbrev halfF64 : F64 := 0x3FE0000000000000#64

/-- 1.5 in binary64. -/
abbrev threeHalvesF64 : F64 := 0x3FF8000000000000#64

theorem units_zeroF64 : (unpack64 zeroF64).units fmt64 = 0 := by decide

/-- A positive binary64 from its exponent and significand fields. -/
theorem units_of_fields64 {x : F64} (e r : Nat) (hx : unpack64 x = ⟨false, (e + 1) * 2 ^ 52 + r⟩)
    (hr : r < 2 ^ 52) : (unpack64 x).units fmt64 = (r + 2 ^ 52) * 2 ^ e := by
  have hu : (unpack64 x).units fmt64 = (magUnits fmt64 ((e + 1) * 2 ^ fmt64.mbits + r) : Int) := by
    rw [hx]; rfl
  rw [hu, magUnits_succ fmt64 e r hr]
  push_cast
  rfl

theorem units_halfF64 : (unpack64 halfF64).units fmt64 = 2 ^ 52 * 2 ^ 1021 :=
  (units_of_fields64 1021 0 (by decide) (by decide)).trans (by rw [Nat.cast_zero, zero_add])

theorem units_oneF64 : (unpack64 oneF64).units fmt64 = 2 * (unpack64 halfF64).units fmt64 := by
  rw [units_of_fields64 1022 0 (by decide) (by decide), units_halfF64, pow_succ 2 1021, Nat.cast_zero]
  generalize (2 : Int) ^ 1021 = n
  ring

theorem units_threeHalvesF64 :
    (unpack64 threeHalvesF64).units fmt64 = 3 * (unpack64 halfF64).units fmt64 := by
  rw [units_of_fields64 1022 (2 ^ 51) (by decide) (by decide), units_halfF64, pow_succ 2 1021]
  generalize (2 : Int) ^ 1021 = n
  push_cast
  ring

theorem units_oneF64_eq_pow : (unpack64 oneF64).units fmt64 = 2 ^ 1074 := by
  rw [units_oneF64, units_halfF64, ← pow_add, ← pow_succ']

theorem units_halfF64_pos : 0 < (unpack64 halfF64).units fmt64 := by
  rw [units_halfF64]; positivity

theorem addF64_isRounded {x y : F64} (hx : (unpack64 x).mag < fmt64.infMag)
    (hy : (unpack64 y).mag < fmt64.infMag) :
    IsRounded fmt64 (unpack64 (addF64 x y)) ((unpack64 x).units fmt64 + (unpack64 y).units fmt64) 1
      ((unpack64 x).neg && (unpack64 y).neg) :=
  isRounded_pack64 (Fp.isRounded_add hx hy)

theorem subF64_isRounded {x y : F64} (hx : (unpack64 x).mag < fmt64.infMag)
    (hy : (unpack64 y).mag < fmt64.infMag) :
    IsRounded fmt64 (unpack64 (subF64 x y)) ((unpack64 x).units fmt64 - (unpack64 y).units fmt64) 1
      ((unpack64 x).neg && !(unpack64 y).neg) :=
  isRounded_pack64 (Fp.isRounded_sub hx hy)

/-! ### The tick (41_phase_oscillator.md R200) -/

/-- The phase is in [0, 1). -/
abbrev PhaseOk (p : F64) : Prop := leF64 zeroF64 p = true ∧ ltF64 p oneF64 = true

/-- The increment is in [0, 0.5]. -/
abbrev IncOk (inc : F64) : Prop := leF64 zeroF64 inc = true ∧ leF64 inc halfF64 = true

/-- The phase after a tick: the sum, or what is left of it above 1.0, which the increment's bound keeps below
1.0. -/
theorem paccTick_phase {a : PaccState} (hp : PhaseOk a.phase) (hi : IncOk a.inc) :
    PhaseOk (paccTick a).1.phase := by
  obtain ⟨hzero, -, hp0⟩ := leF64_iff.1 hp.1
  obtain ⟨-, hone, hp1⟩ := ltF64_iff.1 hp.2
  obtain ⟨-, -, hi0⟩ := leF64_iff.1 hi.1
  obtain ⟨-, hhalf, hi1⟩ := leF64_iff.1 hi.2
  have hpfin := Fp.finite_of_between (by decide) (show (unpack64 oneF64).mag < _ by decide) hp0 hp1.le
  have hifin := Fp.finite_of_between (by decide) (show (unpack64 halfF64).mag < _ by decide) hi0 hi1
  have hsum := addF64_isRounded hpfin hifin
  have h1 := units_oneF64
  have hpos := units_halfF64_pos
  rw [units_zeroF64] at hp0 hi0
  -- the sum is at most 1.5, a value of the format
  have htop : (unpack64 (addF64 a.phase a.inc)).units fmt64 ≤ (unpack64 threeHalvesF64).units fmt64 :=
    Fp.units_le_of_isRounded hsum Nat.one_pos (by decide) (by rw [units_threeHalvesF64]; omega)
  have hsum0 : 0 ≤ (unpack64 (addF64 a.phase a.inc)).units fmt64 := by
    have := Fp.le_units_of_isRounded hsum Nat.one_pos hzero (by rw [units_zeroF64]; omega)
    rwa [units_zeroF64] at this
  have hsumnum := Fp.isRounded_num hsum
  rw [units_threeHalvesF64] at htop
  unfold paccTick
  dsimp only
  split
  next hwrap =>
    obtain ⟨-, -, hge⟩ := leF64_iff.1 hwrap
    have hsumfin := Fp.finite_of_between (by decide) (show (unpack64 threeHalvesF64).mag < _ by decide)
      hge (units_threeHalvesF64 ▸ htop)
    have hdiff := subF64_isRounded hsumfin (show (unpack64 oneF64).mag < _ by decide)
    have hlow := Fp.le_units_of_isRounded hdiff Nat.one_pos hzero (by rw [units_zeroF64]; omega)
    have hhigh := Fp.units_le_of_isRounded hdiff Nat.one_pos hhalf (by omega)
    have hnum := Fp.isRounded_num hdiff
    exact ⟨leF64_iff.2 ⟨hzero, hnum, hlow⟩, ltF64_iff.2 ⟨hnum, hone, by omega⟩⟩
  next hwrap =>
    have hlt : ¬(unpack64 oneF64).units fmt64 ≤ (unpack64 (addF64 a.phase a.inc)).units fmt64 :=
      fun h => hwrap (leF64_iff.2 ⟨hone, hsumnum, h⟩)
    exact ⟨leF64_iff.2 ⟨hzero, hsumnum, by rwa [units_zeroF64]⟩,
      ltF64_iff.2 ⟨hsumnum, hone, by omega⟩⟩

/-! ### The increment (41_phase_oscillator.md R202, R203) -/

/-- One more in the exponent field doubles a normal value. -/
theorem magUnits_double {f : Fmt} {m : Nat} (h : 2 ^ f.mbits ≤ m) :
    magUnits f (m + 2 ^ f.mbits) = 2 * magUnits f m := by
  have hp : 0 < 2 ^ f.mbits := Nat.two_pow_pos _
  obtain ⟨e, he⟩ := Nat.exists_eq_add_of_le' (Nat.div_pos h hp)
  have hr := Nat.mod_lt m hp
  have hm : m = (e + 1) * 2 ^ f.mbits + m % 2 ^ f.mbits := by
    rw [← he]; exact (Nat.div_add_mod' _ _).symm
  rw [hm, magUnits_succ f e _ hr,
    show (e + 1) * 2 ^ f.mbits + m % 2 ^ f.mbits + 2 ^ f.mbits = (e + 1 + 1) * 2 ^ f.mbits + m % 2 ^ f.mbits
      by ring, magUnits_succ f (e + 1) _ hr, pow_succ]
  ring

/-- Nyquist is exactly half the sample rate. -/
theorem units_nyquist {sr : F32} (h : SrOk sr) :
    2 * (unpack32 (nyquist sr)).units fmt32 = (unpack32 sr).units fmt32 := by
  obtain ⟨hfin, hlo⟩ := h.units
  have hmag : (2 : Nat) ^ 24 ≤ (unpack32 sr).mag := by
    rw [← magUnits_le_iff (f := fmt32), ← Fp.natAbs_units]
    have : magUnits fmt32 (2 ^ 24) ≤ 1000 * 2 ^ 149 := by decide
    omega
  obtain ⟨m, hm⟩ := Nat.exists_eq_add_of_le' (hmag.trans' (show (2 : Nat) ^ 23 ≤ 2 ^ 24 by decide))
  let half : Fp := ⟨(unpack32 sr).neg, m⟩
  have hhalf : (unpack32 sr).units fmt32 = 2 * half.units fmt32 := by
    have hdouble := magUnits_double (f := fmt32) (m := m) (show 2 ^ 23 ≤ m by omega)
    have hmag' : magUnits fmt32 (unpack32 sr).mag = 2 * magUnits fmt32 m := by rw [hm]; exact hdouble
    unfold Fp.units
    rw [hmag']
    dsimp only [half]
    split <;> push_cast <;> ring
  have hnum : half.Num fmt32 := by
    have : m ≤ fmt32.infMag := by omega
    exact this
  have hround := isRounded_nyquist h
  have hle := Fp.units_le_of_isRounded hround (by positivity) hnum (by rw [hhalf]; push_cast; linarith)
  have hge := Fp.le_units_of_isRounded hround (by positivity) hnum (by rw [hhalf]; push_cast; linarith)
  rw [hhalf, le_antisymm hle hge]

/-- A quotient whose dividend is at most half the divisor is at most 0.5. -/
theorem divF64_incOk {x y : F64} (hx : (unpack64 x).mag < fmt64.infMag)
    (hy : (unpack64 y).mag < fmt64.infMag) (hx0 : 0 ≤ (unpack64 x).units fmt64)
    (hy0 : 0 < (unpack64 y).units fmt64)
    (hle : 2 * (unpack64 x).units fmt64 ≤ (unpack64 y).units fmt64) : IncOk (divF64 x y) := by
  have hdiv : IsRounded fmt64 (unpack64 (divF64 x y)) _ _ _ :=
    isRounded_pack64 (Fp.isRounded_div hx hy hy0.ne')
  have hzero : (unpack64 zeroF64).Num fmt64 := by decide
  have hhalf : (unpack64 halfF64).Num fmt64 := by decide
  have habs : 0 < ((unpack64 y).units fmt64).natAbs := by omega
  have hcast : (((unpack64 y).units fmt64).natAbs : Int) = (unpack64 y).units fmt64 := by omega
  have hone : (2 : Int) ^ fmt64.unitLog = 2 * (unpack64 halfF64).units fmt64 := by
    rw [← units_oneF64, units_oneF64_eq_pow, unitLog64]
  have hpos := units_halfF64_pos
  rw [Int.sign_eq_one_of_pos hy0, hone, mul_one] at hdiv
  refine ⟨leF64_iff.2 ⟨hzero, Fp.isRounded_num hdiv, Fp.le_units_of_isRounded hdiv habs hzero ?_⟩,
    leF64_iff.2 ⟨Fp.isRounded_num hdiv, hhalf, Fp.units_le_of_isRounded hdiv habs hhalf ?_⟩⟩
  · rw [units_zeroF64, zero_mul]
    exact mul_nonneg hx0 (by omega)
  · rw [hcast]
    calc _ = 2 * (unpack64 x).units fmt64 * (unpack64 halfF64).units fmt64 := by ring
      _ ≤ (unpack64 y).units fmt64 * (unpack64 halfF64).units fmt64 :=
        mul_le_mul_of_nonneg_right hle hpos.le
      _ = _ := mul_comm _ _

/-- A frequency between 0 and Nyquist gives an increment between 0 and 0.5. -/
theorem incOk_derive {a : PaccState} (hsr : SrOk a.sr) (h0 : leF32 zeroF32 a.freq = true)
    (h1 : leF32 a.freq (nyquist a.sr) = true) : IncOk a.derive.inc := by
  obtain ⟨hfin, hlo⟩ := hsr.units
  obtain ⟨-, -, hfreq0⟩ := leF32_iff.1 h0
  obtain ⟨-, -, hfreq1⟩ := leF32_iff.1 h1
  have hnyq := units_nyquist hsr
  have hzero : (unpack32 zeroF32).units fmt32 = 0 := by decide
  have hfreqfin := Fp.finite_of_between (by decide) hfin hfreq0 (by omega)
  obtain ⟨hwx, hux, -⟩ := widenF32_exact (isFinite32_iff.2 hfreqfin)
  obtain ⟨hwy, huy, -⟩ := widenF32_exact (isFinite32_iff.2 hfin)
  rw [hzero] at hfreq0
  refine divF64_incOk (isFinite64_iff.1 hwx) (isFinite64_iff.1 hwy) ?_ ?_ ?_
  · rw [hux]; positivity
  · rw [huy]
    have : 0 < (unpack32 a.sr).units fmt32 := by omega
    positivity
  · rw [hux, huy, ← mul_assoc]
    exact mul_le_mul_of_nonneg_right (by omega) (by positivity)

/-! ### The stored phase (41_phase_oscillator.md R204) -/

/-- The greatest finite magnitude of binary64 as a number of units: a whole number. -/
theorem magUnits_maxFinite64 :
    (magUnits fmt64 (fmt64.infMag - 1) : Int) = (2 ^ 53 - 1) * 2 ^ 971 * 2 ^ 1074 := by
  have h : fmt64.infMag - 1 = (2045 + 1) * 2 ^ fmt64.mbits + (2 ^ 52 - 1) := by decide
  rw [h, magUnits_succ fmt64 2045 _ (by decide), mul_assoc, ← pow_add, Nat.cast_mul, Nat.cast_pow]
  rfl

/-- The floor of a finite value is finite, and not above it. -/
theorem flFloorF64_le {p : F64} (hp : (unpack64 p).mag < fmt64.infMag) :
    (unpack64 (flFloorF64 p)).mag < fmt64.infMag ∧
    (unpack64 (flFloorF64 p)).units fmt64 ≤ (unpack64 p).units fmt64 := by
  have hround : IsRounded fmt64 (unpack64 (flFloorF64 p)) _ _ _ :=
    isRounded_pack64 (Fp.isRounded_ofInt fmt64 (floorF64 p))
  have hfloor := (Fp.floor_spec fmt64 (unpack64 p)).1
  have hle := Fp.units_le_of_isRounded hround Nat.one_pos hp.le (by rwa [Nat.cast_one, mul_one])
  let low : Fp := ⟨true, fmt64.infMag - 1⟩
  have hlow : low.units fmt64 = -((2 ^ 53 - 1) * 2 ^ 971) * 2 ^ 1074 := by
    rw [neg_mul, ← magUnits_maxFinite64]; rfl
  have hplow : low.units fmt64 ≤ (unpack64 p).units fmt64 := by
    have : magUnits fmt64 (unpack64 p).mag ≤ magUnits fmt64 (fmt64.infMag - 1) :=
      magUnits_le_iff.2 (by omega)
    rw [← Fp.natAbs_units] at this
    show -(magUnits fmt64 (fmt64.infMag - 1) : Int) ≤ _
    omega
  have hfloorlow : -((2 ^ 53 - 1) * 2 ^ 971) ≤ floorF64 p := by
    rw [floorF64, Fp.floor, Int.le_ediv_iff_mul_le (by positivity), unitLog64, Nat.cast_pow]
    exact hlow ▸ hplow
  have hge := Fp.le_units_of_isRounded (y := low) hround Nat.one_pos (by decide) <| by
    rw [hlow, Nat.cast_one, mul_one, unitLog64]
    exact mul_le_mul_of_nonneg_right hfloorlow (by positivity)
  exact ⟨Fp.finite_of_between (show low.mag < _ by decide) hp hge hle, hle⟩

/-- The phase that is stored is in [0, 1). -/
theorem normalisePhase_ok (p : F64) : PhaseOk (normalisePhase p) := by
  have hzero : PhaseOk zeroF64 := by decide +kernel
  unfold normalisePhase
  split
  next hfin =>
    rw [isFinite64_iff] at hfin
    obtain ⟨hffin, hfle⟩ := flFloorF64_le hfin
    have hdiff : IsRounded fmt64 (unpack64 (fracF64 p)) _ _ _ := subF64_isRounded hfin hffin
    have hnum := Fp.isRounded_num hdiff
    have hge := Fp.le_units_of_isRounded (y := unpack64 zeroF64) hdiff Nat.one_pos (by decide)
      (by rw [units_zeroF64]; omega)
    have hone : (unpack64 oneF64).Num fmt64 := by decide
    dsimp only
    split_ifs with h1 h0
    · exact hzero
    · exact hzero
    · refine ⟨leF64_iff.2 ⟨by decide, hnum, hge⟩, ltF64_iff.2 ⟨hnum, hone, ?_⟩⟩
      by_contra hlt
      exact h1 (leF64_iff.2 ⟨hone, hnum, not_lt.1 hlt⟩)
  next => exact hzero

/-! ### The accumulators of the block -/

theorem PaccState.ok_iff {a : PaccState} :
    a.Ok ↔ PhaseOk a.phase ∧ IncOk a.inc ∧ leF32 zeroF32 a.freq = true ∧
      leF32 a.freq (nyquist a.sr) = true ∧ SrOk a.sr := by
  simp only [PaccState.Ok, PhaseOk, IncOk, and_assoc]

/-- A frequency clamped to Nyquist and the increment derived from it are in range. -/
theorem PaccState.ok_derive {a : PaccState} (hphase : PhaseOk a.phase) (hsr : SrOk a.sr) (v : F32) :
    (PaccState.derive { a with freq := clampf v zeroF32 (nyquist a.sr) }).Ok := by
  have hnyq : leF32 zeroF32 (nyquist a.sr) = true :=
    leF32_trans (by decide) (cutoffMinHz_le_nyquist hsr)
  obtain ⟨h0, h1⟩ := clampf_mem (v := v) hnyq
  exact PaccState.ok_iff.2 ⟨hphase, incOk_derive (a := { a with freq := _ }) hsr h0 h1, h0, h1, hsr⟩

theorem AccOp.keeps_ok {a a' : PaccState} (op : AccOp a a') (h : a.Ok) : a'.Ok := by
  obtain ⟨hphase, hinc, hfreq0, hfreq1, hsr⟩ := PaccState.ok_iff.1 h
  cases op with
  | setFreq v => exact PaccState.ok_derive hphase hsr v
  | setSr v => exact PaccState.ok_derive (a := { a with sr := clampSr v }) hphase (clampSr_ok v) a.freq
  | setPhase p => exact PaccState.ok_iff.2 ⟨normalisePhase_ok p, hinc, hfreq0, hfreq1, hsr⟩
  | tick => exact PaccState.ok_iff.2 ⟨paccTick_phase hphase hinc, hinc, hfreq0, hfreq1, hsr⟩

theorem OscOp.keeps_acc {n : Nat} {o o' : OscState} (op : OscOp n o o') (h : o.acc.Ok) : o'.acc.Ok := by
  cases op with
  | acc op => exact op.keeps_ok h
  | amp | table => exact h

/-- An LFO's tick is its accumulator's tick. -/
theorem lfoTick_acc (l : LfoState) : (lfoTick l).acc = (paccTick l.acc).1 := by
  unfold lfoTick
  cases l.shape
  case sampleHold => dsimp only; split <;> rfl
  all_goals rfl

theorem LfoOp.keeps_acc {l l' : LfoState} (op : LfoOp l l') (h : l.acc.Ok) : l'.acc.Ok := by
  cases op with
  | acc op => exact op.keeps_ok h
  | setShape | setSeed => exact h
  | tick => rw [lfoTick_acc]; exact AccOp.tick.keeps_ok h

theorem UnitsOp.accumulatorsOk {s : State} {x : Units} (op : UnitsOp s.cfg.nTables s.units x)
    (h : s.AccumulatorsOk) : (s.mapUnits fun _ => x).AccumulatorsOk := by
  obtain ⟨hpacc, hosc, hlfo⟩ := id h
  cases op with
  | pacc hk op => exact ⟨forall_mem_set hpacc hk op.keeps_ok, hosc, hlfo⟩
  | osc hk op => exact ⟨hpacc, forall_mem_set hosc hk op.keeps_acc, hlfo⟩
  | lfo hk op => exact ⟨hpacc, hosc, forall_mem_set hlfo hk op.keeps_acc⟩
  | same | onepole | svf | biquad | dc | adsr | ar => exact h

theorem PaccState.reset_eq :
    PaccState.reset = { phase := 0#64, inc := 0#64, freq := 0#32, sr := 0x46AC4400#32 } := by decide +kernel

theorem PaccState.ok_reset : PaccState.reset.Ok := by
  rw [PaccState.reset_eq]; decide +kernel

theorem State.accumulatorsOk_resetWith (p : Config.Params) (n : Config.Counts) :
    (State.resetWith p n).AccumulatorsOk :=
  ⟨forall_mem_replicate _ PaccState.ok_reset,
    forall_mem_replicate (P := fun o : OscState => o.acc.Ok) _ PaccState.ok_reset,
    forall_mem_replicate (P := fun l : LfoState => l.acc.Ok) _ PaccState.ok_reset⟩

/-- Settles O55: an accumulator's operations keep its ranges, and the units that have one use those alone. -/
theorem accumulatorInvariant : Obligations.AccumulatorInvariant := by
  intro s t h hs
  refine step_keeps_of_unitsOp (Inv := fun s => s.AccumulatorsOk) ?_ ?_ ?_ h hs
  · intro s t _ hunits h
    unfold State.AccumulatorsOk
    rwa [hunits]
  · exact fun s x op h => op.accumulatorsOk h
  · exact fun s _ => State.accumulatorsOk_resetWith _ _

end Sys2Proof.Machine
end

section
/-! PROOF. The register window (10_state.md R51 to R59, 20_memory.md R101 to R105) and the state after reset
(10_state.md R74 to R77). -/

namespace Sys2Proof.Machine

/-! ### Accepted accesses of the window -/

theorem busAccess_read (s : State) {off : Nat} (hoff : off < 0x100) (halign : off % 4 = 0) :
    s.Reads off (s.readReg (registerAt off)) := by
  have hwindow : windowOffset s.cfg.baseAddr (s.cfg.baseAddr + off) = some off := by
    simp [windowOffset]; omega
  simp [State.Reads, busAccess, hwindow, BusAccess.accepted, halign, State.mapEnv]

theorem busAccess_write (s : State) {off : Nat} (hoff : off < 0x100) (halign : off % 4 = 0) (w : U32) :
    busAccess { addr := s.cfg.baseAddr + off, width := .bits32, write := some w } s =
      s.writeReg w (registerAt off) := by
  have hwindow : windowOffset s.cfg.baseAddr (s.cfg.baseAddr + off) = some off := by
    simp [windowOffset]; omega
  simp [busAccess, hwindow, BusAccess.accepted, halign]

/-- A read answers one value. -/
theorem State.Reads.eq_readReg {s : State} {off : Nat} {v : U32} (h : s.Reads off v)
    (hoff : off < 0x100) (halign : off % 4 = 0) : v = s.readReg (registerAt off) := by
  have hreads := h.symm.trans (busAccess_read s hoff halign)
  simp only [Host.Outcome.next.injEq, State.mk.injEq, Env.mk.injEq, Option.some.injEq] at hreads
  tauto

/-- Settles O15: the offsets in question hold no register. -/
theorem reservedOffsetsReadZero : Obligations.ReservedOffsetsReadZero := by
  have hreserved : ∀ j : Fin 0x40, (4 * j.val = 0x2C ∨ (0x44 ≤ 4 * j.val ∧ 4 * j.val ≤ 0x4C) ∨
      0x70 ≤ 4 * j.val) → registerAt (4 * j.val) = .reserved := by decide
  intro s off hoff halign hrange
  obtain ⟨j, rfl⟩ := Nat.dvd_of_mod_eq_zero halign
  have hreg := hreserved ⟨j, by omega⟩ hrange
  have hread := busAccess_read s hoff halign
  rw [hreg] at hread
  exact ⟨hread, fun w => (busAccess_write s hoff halign w).trans (by rw [hreg]; rfl)⟩

/-- Settles O14: the write to STATUS, field by field. -/
theorem statusWriteClearsItsBits : Obligations.StatusWriteClearsItsBits := by
  have hclear : ∀ b c : Bool, (if b then false else c) = (c && !b) := by decide
  intro s w
  have hwrite : s.Writes 0x14 w (s.writeStatus w) := busAccess_write s (by decide) (by decide) w
  simpa only [State.writeStatus, hclear] using hwrite

/-! ### STATUS and the byte view (10_state.md R54, 20_memory.md R102) -/

/-- STATUS bit by bit: the fields and their places (10_state.md R54). -/
theorem State.status_getLsbD (s : State) (i : Nat) :
    s.status.getLsbD i =
      if i < 2 then s.eng.phase.code.getLsbD i
      else if i = 2 then s.inIsr
      else if i = 3 then decide (s.eng.cb ≠ 0#32)
      else if i < 8 then false
      else if i < 16 then (lastErrField s.sticky.lastErr).getLsbD (i - 8)
      else if i = 16 then s.sticky.err
      else if i = 17 then s.sticky.rearmFail
      else if i = 18 then s.sticky.beginFail
      else false := by
  simp only [State.status, BitVec.getLsbD_append]
  rcases (show i < 2 ∨ i = 2 ∨ i = 3 ∨ (4 ≤ i ∧ i < 8) ∨ (8 ≤ i ∧ i < 16) ∨ i = 16 ∨ i = 17 ∨ i = 18 ∨
    19 ≤ i by omega) with h | rfl | rfl | h | h | rfl | rfl | rfl | h
  · rw [if_pos h, if_pos h]
  · simp
  · simp
  · rw [if_neg (by omega), if_neg (by omega), if_neg (by omega), if_pos (by omega)]
    simp (disch := omega) [if_neg, h]
  · have hplace : i - 2 - 1 - 1 - 4 = i - 8 := by omega
    simp (disch := omega) only [if_neg, if_pos, hplace]
  · simp
  · simp
  · simp
  · simp (disch := omega) [if_neg]

/-- Settles O13: each field of STATUS is read off its place in the word, each byte off the register it lies
in. -/
theorem statusShowsItsFields : Obligations.StatusShowsItsFields := by
  intro s
  refine ⟨busAccess_read s (off := 0x14) (by decide) (by decide), ?state, ?ctx, ?cb, ?low, ?lastErr,
    ?err, ?rearmFail, ?beginFail, ?high, rfl, ?bytes⟩
  case state =>
    ext i hi
    rw [BitVec.getElem_extractLsb', s.status_getLsbD]
    simp only [Nat.zero_add, hi, if_true]
    cases s.eng.phase <;> rw [BitVec.getLsbD_eq_getElem hi] <;> rfl
  case ctx => exact s.status_getLsbD 2
  case cb => exact s.status_getLsbD 3
  case low =>
    ext i hi
    rw [BitVec.getElem_extractLsb', s.status_getLsbD]
    simp (disch := omega) [if_neg]
  case lastErr =>
    ext i hi
    rw [BitVec.getElem_extractLsb', s.status_getLsbD]
    simp (disch := omega) only [if_neg, if_pos]
    rw [show 8 + i - 8 = i by omega, BitVec.getLsbD_eq_getElem hi]
    rcases s.sticky.lastErr with _ | c
    · rfl
    · cases c <;> rfl
  case err => exact s.status_getLsbD 16
  case rearmFail => exact s.status_getLsbD 17
  case beginFail => exact s.status_getLsbD 18
  case high =>
    ext i hi
    rw [BitVec.getElem_extractLsb', s.status_getLsbD]
    simp (disch := omega) [if_neg]
  case bytes =>
    intro off k v halign hoff hk hread
    rw [hread.eq_readReg hoff halign, State.windowByte, show (off + k) / 4 * 4 = off by omega,
      show (off + k) % 4 = k by omega]

/-! ### Read-only registers (10_state.md R52, R53, R58) -/

theorem toNat_append_eq {m n : Nat} (x : BitVec m) (y : BitVec n) :
    (x ++ y).toNat = x.toNat * 2 ^ n + y.toNat := by
  rw [BitVec.toNat_append, ← Nat.shiftLeft_add_eq_or_of_lt y.isLt, Nat.shiftLeft_eq]

theorem fourBytes_eq {b3 b2 b1 b0 : Nat} (h2 : b2 < 256) (h1 : b1 < 256) (h0 : b0 < 256) :
    fourBytes b3 b2 b1 b0 = BitVec.ofNat 32 (b0 + 2 ^ 8 * b1 + 2 ^ 16 * b2 + 2 ^ 24 * b3) := by
  apply BitVec.eq_of_toNat_eq
  simp only [fourBytes, toNat_append_eq, BitVec.toNat_ofNat]
  omega

/-- Settles O16: the counts are bytes by R8's bounds, so the fields of a configuration register add up. -/
theorem readOnlyRegisters : Obligations.ReadOnlyRegisters := by
  rintro s ⟨-, -, -, -, htables, -, -, hbits, -⟩
    ⟨hpacc, hosc, honepole, hsvf, hbiquad, hdc, hadsr, har, hlfo⟩
  simp only [Units.counts] at hpacc hosc honepole hsvf hbiquad hdc hadsr har hlfo
  have hread : ∀ {off : Nat} {v : U32}, off < 0x100 → off % 4 = 0 → s.readReg (registerAt off) = v →
      s.Reads off v := fun hoff halign hv => hv ▸ busAccess_read s hoff halign
  refine ⟨hread (by decide) (by decide) rfl, hread (by decide) (by decide) rfl,
    hread (by decide) (by decide) ?_, hread (by decide) (by decide) ?_, hread (by decide) (by decide) ?_,
    hread (by decide) (by decide) rfl, hread (by decide) (by decide) rfl,
    hread (by decide) (by decide) rfl, hread (by decide) (by decide) rfl, ?_⟩
  · exact fourBytes_eq (by omega) (by omega) (by omega)
  · exact fourBytes_eq (by omega) (by omega) (by omega)
  · exact fourBytes_eq (by omega) (by omega) (by omega)
  · simp only [List.forall_mem_cons, List.not_mem_nil, false_implies, implies_true, and_true]
    refine ⟨?_, ?_, ?_, ?_, ?_, ?_, ?_, ?_, ?_⟩ <;> exact busAccess_write s (by decide) (by decide)

/-! ### Operand and result registers (10_state.md R57) -/

theorem State.bank_eq (s : State) : s.bank = if s.eng.phase = .inHandler then s.isr else s.fg := by
  simp [State.bank, State.inIsr]

theorem State.inIsr_of_phase {s : State} (h : s.eng.phase = .inHandler) : s.inIsr = true := by
  simp [State.inIsr, h]

theorem State.inIsr_of_phase_ne {s : State} (h : s.eng.phase ≠ .inHandler) : s.inIsr = false := by
  simp [State.inIsr, h]

/-- Settles O17: the window's operand and result offsets reach the current bank, as `putRes` and a command's
operands do. -/
theorem operandAndResultRegisters : Obligations.OperandAndResultRegisters := by
  have hop : ∀ k : Fin 5, registerAt (0x30 + 4 * k.val) = .op k := by decide
  have hres : ∀ k : Fin 8, registerAt (0x50 + 4 * k.val) = .res k := by decide
  refine ⟨fun s k w => ?operands, fun s k w => ?results, fun b k j w => ?written,
    fun b k j w => b.res_setOp k j w, fun s vs => ?putRes, ?assembly, fun s => ?cmd⟩
  case operands =>
    have hread := busAccess_read s (off := 0x30 + 4 * k.val) (by omega) (by omega)
    have hwrite := busAccess_write s (off := 0x30 + 4 * k.val) (by omega) (by omega) w
    rw [hop, State.readReg, State.bank_eq] at hread
    rw [hop, State.writeReg] at hwrite
    refine ⟨hread, fun h => hwrite.trans ?_, fun h => hwrite.trans ?_⟩
    · rw [State.mapBank_of_fg (State.inIsr_of_phase_ne h)]
    · rw [State.mapBank_of_isr (State.inIsr_of_phase h)]
  case results =>
    have hread := busAccess_read s (off := 0x50 + 4 * k.val) (by omega) (by omega)
    have hwrite := busAccess_write s (off := 0x50 + 4 * k.val) (by omega) (by omega) w
    rw [hres, State.readReg, State.bank_eq] at hread
    rw [hres] at hwrite
    exact ⟨hread, hwrite⟩
  case written =>
    split
    next h => rw [h, Bank.op_setOp_same]
    next h => exact b.op_setOp_other w h
  case putRes =>
    have hbank := s.putRes_res vs
    refine ⟨fun h => ⟨?_, fun k => (s.putRes_op vs k).1, fun k => ?_⟩,
      fun h => ⟨?_, fun k => (s.putRes_op vs k).2, fun k => ?_⟩⟩
    · rw [State.putRes, State.mapBank_of_fg (State.inIsr_of_phase_ne h)]
    · simpa [State.bank_eq, h] using hbank k
    · rw [State.putRes, State.mapBank_of_isr (State.inIsr_of_phase h)]
    · simpa [State.bank_eq, h] using hbank k
  case assembly =>
    rintro s b rfl
    rw [← State.bank_eq]
    exact ⟨fun k => ⟨rfl, rfl⟩, rfl⟩
  case cmd => exact busAccess_read s (off := 0x18) (by decide) (by decide)

/-! ### Reset (10_state.md R74 to R77) -/

theorem AdsrState.ok_reset : AdsrState.reset.Ok := by decide
theorem ArState.ok_reset : ArState.reset.Ok := by decide

/-- A derivation done twice gives what it gives once. -/
theorem BiquadState.derive_derive (b : BiquadState) : b.derive.derive = b.derive := by
  obtain ⟨type, cutoff, sr, b0, b1, b2, a1, a2, x1, x2, y1, y2⟩ := b
  cases type <;> rfl

/-- The increment of an accumulator after its derivation is the derived one (41_phase_oscillator.md R202). -/
theorem PaccState.derive_inc (a : PaccState) :
    a.derive.inc = divF64 (widenF32 a.derive.freq) (widenF32 a.derive.sr) := rfl

theorem OnePoleState.derive_derive (o : OnePoleState) : o.derive.derive = o.derive := by
  simp only [OnePoleState.derive]
theorem SvfState.derive_derive (f : SvfState) : f.derive.derive = f.derive := by
  simp only [SvfState.derive]
theorem AdsrState.derive_derive (e : AdsrState) : e.derive.derive = e.derive := by
  simp only [AdsrState.derive]
theorem ArState.derive_derive (e : ArState) : e.derive.derive = e.derive := by
  simp only [ArState.derive]

theorem State.derivedOk_resetWith (p : Config.Params) (n : Config.Counts) :
    (State.resetWith p n).DerivedOk := by
  have hinc := PaccState.derive_inc
    { phase := zeroF64, inc := zeroF64, freq := zeroF32, sr := Config.srDefault }
  refine ⟨forall_mem_replicate _ hinc, fun o ho => ?_, fun l hl => ?_,
    forall_mem_replicate _ (OnePoleState.derive_derive _).symm,
    forall_mem_replicate _ (SvfState.derive_derive _).symm,
    forall_mem_replicate _ fun _ => (BiquadState.derive_derive _).symm,
    forall_mem_replicate _ (AdsrState.derive_derive _).symm,
    forall_mem_replicate _ (ArState.derive_derive _).symm⟩
  · rw [List.eq_of_mem_replicate ho]; exact hinc
  · rw [List.eq_of_mem_replicate hl]; exact hinc

/-- Settles O34: the reset record of each kind meets its invariant. -/
theorem resetMeetsTheInvariants : Obligations.ResetMeetsTheInvariants := by
  rintro p n _ ⟨-, -, -, htables, -⟩ - rfl
  exact ⟨EngState.ok_reset, State.accumulatorsOk_resetWith p n,
    State.oscillatorsOk_resetWith fun _ => htables, State.parametersOk_resetWith p n,
    forall_mem_replicate _ AdsrState.ok_reset, forall_mem_replicate _ ArState.ok_reset,
    State.derivedOk_resetWith p n⟩

theorem Units.counts_reset (n : Config.Counts) : (Units.reset n).counts = n := by
  simp [Units.counts, Units.reset]

theorem AdsrState.reset_incs :
    AdsrState.reset.attackInc = 0x3B949B93#32 ∧ AdsrState.reset.decayInc = 0x396DC5B8#32 ∧
      AdsrState.reset.releaseInc = 0x396DC5B8#32 := by decide

theorem ArState.reset_incs :
    ArState.reset.attackInc = 0x3B949B93#32 ∧ ArState.reset.releaseInc = 0x396DC5B8#32 := by decide

theorem State.status_resetWith (p : Config.Params) (n : Config.Counts) :
    (State.resetWith p n).status = 0#32 := by
  have h : (State.resetWith p n).status = State.reset.status := rfl
  rw [h]
  decide

/-- Settles O33: the window's mirrors of the reset fields, and the reset record of each kind. -/
theorem resetValues : Obligations.ResetValues := by
  rintro p n s rfl
  have hread : ∀ {off : Nat}, off < 0x100 → off % 4 = 0 →
      (State.resetWith p n).Reads off ((State.resetWith p n).readReg (registerAt off)) :=
    busAccess_read _
  have hstatus := hread (off := 0x14) (by decide) (by decide)
  refine ⟨hread (off := 0x00) (by decide) (by decide), State.status_resetWith p n ▸ hstatus,
    hread (off := 0x1C) (by decide) (by decide), hread (off := 0x20) (by decide) (by decide),
    hread (off := 0x24) (by decide) (by decide), hread (off := 0x28) (by decide) (by decide),
    ?operands, ?results, rfl, rfl, rfl, Units.counts_reset n, rfl, ?accumulators,
    forall_mem_replicate _ ⟨rfl, rfl⟩, forall_mem_replicate _ ⟨rfl, rfl, rfl, rfl⟩,
    forall_mem_replicate _ ⟨rfl, rfl, rfl, rfl, rfl, rfl, rfl⟩,
    forall_mem_replicate _ ⟨rfl, rfl, rfl, rfl, rfl, rfl, rfl⟩, forall_mem_replicate _ ⟨rfl, rfl⟩,
    forall_mem_replicate _ ⟨rfl, rfl, rfl, rfl, rfl, rfl, rfl, rfl, rfl, AdsrState.reset_incs⟩,
    forall_mem_replicate _ ⟨rfl, rfl, rfl, rfl, rfl, rfl, ArState.reset_incs⟩,
    forall_mem_replicate _ ⟨rfl, rfl, rfl, rfl⟩⟩
  case operands =>
    have h : ∀ k : Fin 5, Bank.reset.op k = 0#32 := by decide
    exact fun k => ⟨h k, h k⟩
  case results =>
    have h : ∀ k : Fin 8, Bank.reset.res k = 0#32 := by decide
    exact fun k => ⟨h k, h k⟩
  case accumulators =>
    rw [← PaccState.reset_eq]
    rintro a (ha | ⟨o, ho, rfl⟩ | ⟨l, hl, rfl⟩)
    · exact List.eq_of_mem_replicate ha
    · rw [List.eq_of_mem_replicate ho]; rfl
    · rw [List.eq_of_mem_replicate hl]; rfl

end Sys2Proof.Machine
end

section
/-! PROOF. The expiry handling step (60_exceptions.md R465 to R471, 10_state.md R72). -/

namespace Sys2Proof.Machine

/-! ### What taking an expiry leaves -/

theorem State.takeExpiry_stale {s : State} (h : s.eng.phase ≠ .armed) : s.takeExpiry = s := by
  simp [State.takeExpiry, h]

theorem State.takeExpiry_handler {s : State} (h : s.eng.phase = .armed) (hcb : s.eng.cb ≠ 0#32) :
    s.takeExpiry = { s with eng := { s.eng with phase := .inHandler } } := by
  simp [State.takeExpiry, h, hcb, State.enterHandler]

/-- Silence: the neutral value is written and the timer re-armed. -/
theorem State.takeExpiry_silence {s : State} {rest : List Bool} (h : s.eng.phase = .armed)
    (hcb : s.eng.cb = 0#32) (hans : s.env.answers = true :: rest) :
    s.takeExpiry =
      { s with
        env := { s.env with
          answers := rest
          asked := s.env.asked + 1
          events := s.env.events ++ [.write s.cfg.neutral, .armOnce s.eng.period true]
          timer := .armed s.eng.period
          transport := { s.env.transport with code := some s.cfg.neutral } } } := by
  have heng : (⟨.armed, 0#32, s.eng.rate, s.eng.period, s.eng.pin⟩ : EngState) = s.eng := by
    rw [← h, ← hcb]
  simp [State.takeExpiry, h, hcb, State.rearm, State.writeNeutral, State.mapEnv, Env.write, Env.armOnce,
    Env.nextAnswer, Env.answered, hans, heng]

/-- Silence whose re-arm is refused: the engine stops and REARM_FAIL is set. -/
theorem State.takeExpiry_rearmFails {s : State} {rest : List Bool} (h : s.eng.phase = .armed)
    (hcb : s.eng.cb = 0#32) (hans : s.env.answers = false :: rest) :
    s.takeExpiry =
      { s with
        eng := EngState.reset
        sticky := { s.sticky with rearmFail := true }
        env := { s.env with
          answers := rest
          asked := s.env.asked + 1
          events := s.env.events ++
            [.write s.cfg.neutral, .armOnce s.eng.period false, .write s.cfg.neutral]
          transport := { s.env.transport with code := some s.cfg.neutral } } } := by
  simp [State.takeExpiry, h, hcb, State.rearm, State.rearmFail, State.writeNeutral, State.mapEnv,
    Env.write, Env.armOnce, Env.nextAnswer, Env.answered, hans]

/-! ### The step -/

/-- A latched expiry and one that arrives between steps are handled alike, in the state `s0` that has taken
the turn and the expiry; one that arrives meanwhile is latched before the handling or after it. -/
theorem step_of_expiry {s s0 s1 : State} {g : Arrival} {last : State → State} (hturn : s.env.turn = .work g)
    (hs0 : (s.expiryPending = true ∧
        s0 = { s with expiryPending := false, env := { s.env with turns := s.env.turns.tail } }) ∨
      (s.expiryPending = false ∧ ∃ rest, s.env.inputs = .expire :: rest ∧
        s0 = { s with env := { s.env with
          inputs := rest, turns := s.env.turns.tail, timer := .disarmed } }))
    (hs1 : s1 = if g = .early then
      { s0 with expiryPending := true, env := { s0.env with timer := .disarmed } } else s0)
    (hlast : last = fun t => if g = .late then
      { t with expiryPending := true, env := { t.env with timer := .disarmed } } else t) :
    step s = .next (last s1.takeExpiry) := by
  subst hs1 hlast
  have hstep : step s = during g (fun t => .next t.takeExpiry) s0 := by
    rcases hs0 with ⟨hp, rfl⟩ | ⟨hp, rest, hi, rfl⟩
    · exact step_of_pending hturn hp
    · rw [step_of_input hturn hp hi]
      cases g <;> rfl
  rw [hstep]
  cases g <;> rfl

/-- Settles O29: what the handling does to a state with the engine, the answers and the events of `s`. -/
theorem expiryHandlingStep : Obligations.ExpiryHandlingStep := by
  intro s s0 s1 g last hturn hs0 hs1 hlast
  have hstep := step_of_expiry hturn hs0 hs1 hlast
  obtain ⟨heng, hcfg, hsticky, hans, hasked, hevents, htransport⟩ :
      s1.eng = s.eng ∧ s1.cfg = s.cfg ∧ s1.sticky = s.sticky ∧ s1.env.answers = s.env.answers ∧
      s1.env.asked = s.env.asked ∧ s1.env.events = s.env.events ∧
      s1.env.transport = s.env.transport := by
    subst hs1
    rcases hs0 with ⟨-, rfl⟩ | ⟨-, _, -, rfl⟩ <;> split <;> exact ⟨rfl, rfl, rfl, rfl, rfl, rfl, rfl⟩
  rw [hstep, ← heng, ← hcfg, ← hsticky, ← hans, ← hasked, ← hevents, ← htransport]
  refine ⟨fun h => ?_, fun h hcb => ?_, fun rest h hcb ha => ?_, fun rest h hcb ha => ?_⟩
  · rw [State.takeExpiry_stale h]
  · rw [State.takeExpiry_handler h hcb]
  · rw [State.takeExpiry_silence h hcb ha]
  · rw [State.takeExpiry_rearmFails h hcb ha]; rfl

end Sys2Proof.Machine
end

section
/-! PROOF. The bus (20_memory.md R101, R103, R105) and what is fixed by the hardware (R107). -/

namespace Sys2Proof.Machine

/-! ### No step changes the hardware (20_memory.md R107, 00_scope.md R8) -/

/-- An operation on a record puts a record where there was one. -/
theorem UnitsOp.counts_eq {n : Nat} {x x' : Units} (op : UnitsOp n x x') : x'.counts = x.counts := by
  cases op with
  | same => rfl
  | pacc | osc | onepole | svf | biquad | dc | adsr | ar | lfo => simp [Units.counts]

/-- Settles O60: operations on records keep the counts, and reset builds as many records as there were. -/
theorem hardwareNeverChanges : Obligations.HardwareNeverChanges := by
  intro s t hs
  refine step_keeps_of_unitsOp (Inv := s.SameHardware) ?_ ?_ ?_ ⟨rfl, rfl⟩ hs
  · rintro u v hcfg hunits ⟨hc, hn⟩
    exact ⟨hcfg.trans hc, (congrArg Units.counts hunits).trans hn⟩
  · rintro u x op ⟨hc, hn⟩
    exact ⟨hc, op.counts_eq.trans hn⟩
  · rintro u ⟨hc, hn⟩
    exact ⟨hc, (Units.counts_reset _).trans hn⟩

/-! ### The window's decode (20_memory.md R101) -/

theorem windowOffset_eq_none {base addr : Nat} :
    windowOffset base addr = none ↔ addr < base ∨ base + 0xFF < addr := by
  simp only [windowOffset, ite_eq_right_iff, reduceCtorEq, imp_false]
  omega

theorem windowOffset_eq_some {base addr off : Nat} :
    windowOffset base addr = some off ↔ base ≤ addr ∧ addr ≤ base + 0xFF ∧ addr - base = off := by
  simp [windowOffset, and_assoc]

theorem busAccess_outside {a : BusAccess} {s : State}
    (h : a.addr < s.cfg.baseAddr ∨ s.cfg.baseAddr + 0xFF < a.addr) : busAccess a s = .next s := by
  simp [busAccess, windowOffset_eq_none.2 h]

/-- Settles O18: of what an access can do, a read does nothing or hands the host its data. -/
theorem readsHaveNoSideEffect : Obligations.ReadsHaveNoSideEffect := by
  refine ⟨fun a s t hread ht => ?_, fun a s hout => busAccess_outside hout⟩
  rcases busAccess_cases a s with ⟨-, e⟩ | ⟨_, -, -, e⟩ | ⟨_, w, -, -, hwrite, -⟩ | ⟨_, -, -, -, e⟩
  · cases e.symm.trans ht; rfl
  · cases e.symm.trans ht
  · cases hread.symm.trans hwrite
  · cases e.symm.trans ht; rfl

/-! ### Bus errors (20_memory.md R103) -/

/-- The access is to the window at `base`, and not 32 bits wide or not at a multiple of 4. -/
def BusAccess.IsBusError (base : Nat) (a : BusAccess) : Prop :=
  base ≤ a.addr ∧ a.addr ≤ base + 0xFF ∧ (a.width ≠ .bits32 ∨ (a.addr - base) % 4 ≠ 0)

/-- Of the accesses in the window the bus errors are those that are not accepted. -/
theorem BusAccess.isBusError_iff {base off : Nat} {a : BusAccess}
    (hoff : windowOffset base a.addr = some off) : a.IsBusError base ↔ a.accepted off = false := by
  obtain ⟨hlo, hhi, rfl⟩ := windowOffset_eq_some.1 hoff
  simp only [BusAccess.IsBusError, BusAccess.accepted, hlo, hhi, true_and, Bool.and_eq_false_iff,
    decide_eq_false_iff_not, ne_eq]

/-- The outcome is the refusal as a bus error if `P`, and a next state if not. -/
def RefusedIff (P : Prop) (o : Host.Outcome State Fault Refusal) : Prop :=
  (P → o = .refused .busError) ∧ (¬P → ∃ t, o = .next t)

namespace RefusedIff

theorem of_next {P : Prop} {o : Host.Outcome State Fault Refusal} (hP : ¬P) (ho : ∃ t, o = .next t) :
    RefusedIff P o :=
  ⟨fun h => absurd h hP, fun _ => ho⟩

theorem of_refused {P : Prop} (hP : P) : RefusedIff P (.refused .busError) :=
  ⟨fun _ => rfl, fun h => absurd hP h⟩

/-- There is a next state or the refusal, and the refusal exactly if `P`. -/
theorem next_or_refused {P : Prop} {o : Host.Outcome State Fault Refusal} (h : RefusedIff P o) :
    ((∃ t, o = .next t) ∨ o = .refused .busError) ∧ (o = .refused .busError ↔ P) := by
  by_cases hP : P
  · exact ⟨.inr (h.1 hP), fun _ => hP, h.1⟩
  · obtain ⟨t, rfl⟩ := h.2 hP
    exact ⟨.inl ⟨t, rfl⟩, nofun, fun h => absurd h hP⟩

theorem congr {P Q : Prop} {o : Host.Outcome State Fault Refusal} (h : RefusedIff P o) (hPQ : P ↔ Q) :
    RefusedIff Q o :=
  propext hPQ ▸ h

theorem mapNext {P : Prop} {o : Host.Outcome State Fault Refusal} (f : State → State)
    (h : RefusedIff P o) : RefusedIff P (mapNext f o) := by
  refine ⟨fun hP => by rw [h.1 hP]; rfl, fun hP => ?_⟩
  obtain ⟨t, rfl⟩ := h.2 hP
  exact ⟨f t, rfl⟩

/-- An expiry that arrives during the work does not make it a refusal or save it from one. -/
theorem during {P : Prop} {work : State → Host.Outcome State Fault Refusal} {s : State}
    (h : ∀ u : State, u.cfg = s.cfg → RefusedIff P (work u)) (g : Arrival) :
    RefusedIff P (during g work s) := by
  cases g with
  | none => exact h s rfl
  | early => exact h s.latchExpiry rfl
  | late => exact (h s rfl).mapNext State.latchExpiry

end RefusedIff

theorem busAccess_refusedIff (a : BusAccess) (s : State) :
    RefusedIff (a.IsBusError s.cfg.baseAddr) (busAccess a s) := by
  rcases busAccess_cases a s with ⟨hout, e⟩ | ⟨off, hoff, hacc, e⟩ | ⟨off, w, hoff, hacc, -, e⟩ |
    ⟨off, hoff, hacc, -, e⟩ <;> rw [e]
  · rw [windowOffset_eq_none] at hout
    exact .of_next (fun ⟨hlo, hhi, _⟩ => by omega) ⟨_, rfl⟩
  · exact .of_refused ((BusAccess.isBusError_iff hoff).2 hacc)
  · exact .of_next (by simp [BusAccess.isBusError_iff hoff, hacc]) (writeReg_eq_next s w _)
  · exact .of_next (by simp [BusAccess.isBusError_iff hoff, hacc]) ⟨_, rfl⟩

theorem accept_refusedIff (i : Input) (s : State) :
    RefusedIff (∃ a, i = .bus a ∧ a.IsBusError s.cfg.baseAddr) (accept i s) := by
  cases i with
  | bus a => exact (busAccess_refusedIff a s).congr (by simp)
  | expire => exact .of_next (by simp) ⟨_, rfl⟩

/-- Only an input that is taken, and there only a bus error, is refused. -/
theorem step_refusedIff (s : State) :
    RefusedIff (s.env.turn ≠ .reset ∧ s.expiryPending = false ∧
      ∃ a rest, s.env.inputs = .bus a :: rest ∧ a.IsBusError s.cfg.baseAddr) (step s) := by
  rcases step_cases s with ⟨ht, e⟩ | ⟨g, ht, ⟨hp, e⟩ | ⟨-, hi, e⟩ | ⟨i, rest, hp, hi, e⟩⟩ <;> rw [e]
  · exact .of_next (by simp [ht]) ⟨_, rfl⟩
  · exact .during (fun u _ => .of_next (by simp [hp]) ⟨_, rfl⟩) g
  · exact .of_next (by simp [hi]) ⟨_, rfl⟩
  · refine .during (fun u hcfg => (accept_refusedIff i u).congr ?_) g
    rw [hcfg]
    simp [ht, hp, hi]

/-- Settles O8: the step is refused exactly for a bus error in front, and answers a next state otherwise. -/
theorem onlyBusErrorsAreRefused : Obligations.OnlyBusErrorsAreRefused :=
  fun s => (step_refusedIff s).next_or_refused

end Sys2Proof.Machine
end

section
/-! PROOF. The decoder and the encoder, row by row of the opcode map (30_encoding.md R130 to R137). -/

namespace Sys2Proof

open Machine

/-! ### Every command is what its word decodes to -/

theorem decode_bare {opc : U8} {i : Instr} (h : opcodeMap opc.toNat = some (.bare i)) :
    decode (word opc 0#8 0#8) = .ok i := by
  simp [decode, Laws.word_fields, h]

theorem decode_unit {opc : U8} {f : U8 → Instr} (h : opcodeMap opc.toNat = some (.unit f)) (u : U8) :
    decode (word opc u 0#8) = .ok (f u) := by
  simp [decode, Laws.word_fields, h]

theorem decode_unitSel {opc : U8} {f : U8 → U8 → Instr} (h : opcodeMap opc.toNat = some (.unitSel f))
    (u sel : U8) : decode (word opc u sel) = .ok (f u sel) := by
  simp [decode, Laws.word_fields, h]

theorem decode_sel {opc : U8} {f : U8 → Instr} (h : opcodeMap opc.toNat = some (.sel f)) (sel : U8) :
    decode (word opc 0#8 sel) = .ok (f sel) := by
  simp [decode, Laws.word_fields, h]

theorem decode_encode (i : Instr) : decode (encode i) = .ok i := by
  cases i with
  | nop | engBegin | engEnd | engSetCallback | engReturn => exact decode_bare rfl
  | oscSetTable u sel | onepoleSetMode u sel | bqSetType u sel | bqGet u sel | adsrGet u sel
  | lfoSetShape u sel => exact decode_unitSel rfl u sel
  | wtLookup sel => exact decode_sel rfl sel
  | _ u => exact decode_unit rfl u

/-- A row of spec/opcode_table.json read at its full length is the word itself (30_encoding.md R138). -/
theorem decodeTableWord_toNat {w : U32} {i : Instr} :
    decodeTableWord 32 w.toNat = some i ↔ decode w = .ok i := by
  rw [decodeTableWord_eq_some, Nat.mod_eq_of_lt w.isLt, BitVec.ofNat_toNat, BitVec.setWidth_eq]

/-- Settles O2: a command's word is in its row of the map, and the decoder reads its fields back. -/
theorem decodeOfEncodeIsTheCommand : Obligations.DecodeOfEncodeIsTheCommand :=
  fun i => ⟨decode_encode i, decodeTableWord_toNat.2 (decode_encode i)⟩

/-- Settles O3: the fields of a word that decodes are all read or 0, and the encoder writes them back. -/
theorem encodeOfDecodeIsTheWord : Obligations.EncodeOfDecodeIsTheWord := fun _ _ => encode_of_decode

end Sys2Proof
end

section
/-! PROOF. The command port's checks (30_encoding.md R136, R137; 60_exceptions.md R452, R453, R461). -/

namespace Sys2Proof

open Machine

/-! ### The rows of the opcode map -/

/-- The opcode map leaves out the opcodes of 30_encoding.md R137 and no other. -/
theorem opcodeMap_isNone : ∀ opc < 256, (opcodeMap opc).isNone = decide (IllegalOpcode opc) := by
  decide +kernel

/-- The row's commands read SEL (30_encoding.md R133). -/
def Shape.takesSel : Shape → Bool
  | .bare _ | .unit _ => false
  | .unitSel _ | .sel _ => true

/-- The row's commands read UNIT (30_encoding.md R131). -/
def Shape.takesUnit : Shape → Bool
  | .bare _ | .sel _ => false
  | .unit _ | .unitSel _ => true

theorem selectorBound_isSome {n : Nat} {shape : Shape} (h : opcodeMap n = some shape) (nTables : Nat) :
    (selectorBound nTables n).isSome = shape.takesSel := by
  unfold opcodeMap at h
  split at h <;> cases h <;> rfl

theorem kindCount_of_not_takesUnit {n : Nat} {shape : Shape} (h : opcodeMap n = some shape)
    (hshape : shape.takesUnit = false) (counts : Config.Counts) : kindCount counts (n / 16) = 1 := by
  unfold opcodeMap at h
  split at h <;> cases h <;> first | rfl | cases hshape

/-! ### The decoder's checks in their order -/

/-- An opcode outside the map is ILLEGAL_OPCODE whatever the other bits are (30_encoding.md R137). -/
theorem decode_of_illegal {w : U32} (h : IllegalOpcode (wordOpc w).toNat) :
    decode w = .error .illegalOpcode := by
  have hnone : opcodeMap (wordOpc w).toNat = none := by
    rw [← Option.isNone_iff_eq_none, opcodeMap_isNone _ (wordOpc w).isLt, decide_eq_true h]
  simp [decode, hnone]

theorem exists_row_of_legal {w : U32} (h : ¬ IllegalOpcode (wordOpc w).toNat) :
    ∃ shape, opcodeMap (wordOpc w).toNat = some shape := by
  rw [← Option.isSome_iff_exists, ← Option.not_isNone, opcodeMap_isNone _ (wordOpc w).isLt,
    decide_eq_false h]
  rfl

/-- In a row, the reserved bits come first and then the UNIT that must be 0 (30_encoding.md R136). -/
theorem decode_of_row {w : U32} {shape : Shape} (h : opcodeMap (wordOpc w).toNat = some shape) :
    decode w =
      if wordRsv w ≠ 0#8 ∨ (wordSel w ≠ 0#8 ∧ shape.takesSel = false) then .error .reservedBits
      else if wordUnit w ≠ 0#8 ∧ shape.takesUnit = false then .error .badUnit
      else .ok (shape.instr (wordUnit w) (wordSel w)) := by
  by_cases hrsv : wordRsv w = 0#8 <;> cases shape <;>
    simp [decode, h, hrsv, Shape.takesSel, Shape.takesUnit, Shape.instr]

end Sys2Proof

namespace Sys2Proof.Machine

/-- RSV is not 0, or SEL is not 0 where no selector is taken (30_encoding.md R133, R136). -/
abbrev HasReservedBits (nTables : Nat) (w : U32) : Prop :=
  wordRsv w ≠ 0#8 ∨ (wordSel w ≠ 0#8 ∧ selectorBound nTables (wordOpc w).toNat = none)

theorem selectorBound_eq_none {n : Nat} {shape : Shape} (h : opcodeMap n = some shape) (nTables : Nat) :
    selectorBound nTables n = none ↔ shape.takesSel = false := by
  rw [← selectorBound_isSome h nTables, Option.isSome_eq_false_iff, Option.isNone_iff_eq_none]

theorem decode_of_reserved {w : U32} {nTables : Nat} (hlegal : ¬ IllegalOpcode (wordOpc w).toNat)
    (h : HasReservedBits nTables w) : decode w = .error .reservedBits := by
  obtain ⟨shape, hrow⟩ := exists_row_of_legal hlegal
  rw [HasReservedBits, selectorBound_eq_none hrow] at h
  rw [decode_of_row hrow, if_pos h]

/-- A word that passes the first two checks is a command, or has a UNIT that must be 0 and is not. -/
theorem decode_of_not_reserved {w : U32} {nTables : Nat} (hlegal : ¬ IllegalOpcode (wordOpc w).toNat)
    (h : ¬ HasReservedBits nTables w) :
    (∃ i, decode w = .ok i) ∨
    (decode w = .error .badUnit ∧
      ∀ counts, kindCount counts ((wordOpc w).toNat / 16) ≤ (wordUnit w).toNat) := by
  obtain ⟨shape, hrow⟩ := exists_row_of_legal hlegal
  rw [HasReservedBits, selectorBound_eq_none hrow] at h
  rw [decode_of_row hrow, if_neg h]
  split
  next hunit =>
    refine .inr ⟨rfl, fun counts => ?_⟩
    rw [kindCount_of_not_takesUnit hrow hunit.2, Nat.one_le_iff_ne_zero]
    exact fun h0 => hunit.1 (BitVec.eq_of_toNat_eq h0)
  next => exact .inl ⟨_, rfl⟩

theorem decode_eq_illegalOpcode {w : U32} :
    decode w = .error .illegalOpcode ↔ IllegalOpcode (wordOpc w).toNat := by
  refine ⟨fun h => by_contra fun hlegal => ?_, decode_of_illegal⟩
  obtain ⟨shape, hrow⟩ := exists_row_of_legal hlegal
  rw [decode_of_row hrow] at h
  split_ifs at h <;> cases h

theorem illegalOpcode_count :
    ((List.range 256).filter fun opc => decide (IllegalOpcode opc)).length = 195 := by
  decide +kernel

/-- Settles O4: a rejected word is one the decoder answers with an error. -/
theorem illegalAndReservedWordsAreRejected : Obligations.IllegalAndReservedWordsAreRejected := by
  refine ⟨illegalOpcode_count, fun _ => decode_eq_illegalOpcode, fun w s hill => ?_,
    fun w s hlegal hrsv => ?_, fun w s hlegal hsel hnone => ?_, by decide, fun _ => rfl⟩
  · exact command_of_error (decode_of_illegal hill) s
  · exact command_of_error (decode_of_reserved (nTables := s.cfg.nTables) hlegal (.inl hrsv)) s
  · exact command_of_error (decode_of_reserved hlegal (.inr ⟨hsel, hnone⟩)) s

/-! ### The checks a command makes itself -/

/-- `UNIT` is below the count of its kind, read from the command or from its word (30_encoding.md R131). -/
theorem unitExists_iff {l : Limits} {i : Instr} :
    i.unitExists l = true ↔
      (wordUnit (encode i)).toNat < kindCount l.counts ((wordOpc (encode i)).toNat / 16) := by
  cases i <;> simp [Instr.unitExists, Instr.unitOf, encode, Laws.word_fields, kindCount]

theorem unitExists_eq_false {l : Limits} {i : Instr} :
    i.unitExists l = false ↔
      kindCount l.counts ((wordOpc (encode i)).toNat / 16) ≤ (wordUnit (encode i)).toNat := by
  rw [← Bool.not_eq_true, unitExists_iff, not_lt]

/-- `SEL` is below its bound, read from the command or from its word (30_encoding.md R133). -/
theorem selectorLegal_iff {l : Limits} {i : Instr} :
    i.selectorLegal l = true ↔
      ∀ n ∈ selectorBound l.nTables (wordOpc (encode i)).toNat, (wordSel (encode i)).toNat < n := by
  cases i <;> simp [Instr.selectorLegal, Instr.selectorOf, encode, Laws.word_fields, selectorBound]

theorem selectorLegal_eq_false {l : Limits} {i : Instr} :
    i.selectorLegal l = false ↔
      (selectorBound l.nTables (wordOpc (encode i)).toNat).any
        (fun n => decide (n ≤ (wordSel (encode i)).toNat)) = true := by
  rw [← Bool.not_eq_true, selectorLegal_iff, Option.any_eq_true]
  simp

theorem rejects_of_no_record {α : Type} {records : List α} {u : U8} (s : State) (rule : α → State)
    (h : decide (u.toNat < records.length) = false) :
    (.next (withUnit records u s rule) : Host.Outcome State Fault Refusal) = .next (s.reject .badUnit) := by
  rw [withUnit_of_none s rule (not_lt.1 (of_decide_eq_false h))]

/-- A command whose unit does not exist is rejected with BAD_UNIT (30_encoding.md R136). -/
theorem exec_of_absent_unit {i : Instr} {s : State} (h : i.unitExists s.limits = false) :
    exec i s = .next (s.reject .badUnit) := by
  cases i with
  | nop | engBegin | engEnd | engSetCallback | engReturn | wtLookup => cases h
  | _ => exact rejects_of_no_record s _ h

theorem onePoleModeOf_of_le {sel : U8} (h : 2 ≤ sel.toNat) : onePoleModeOf sel = none := by
  unfold onePoleModeOf; split <;> first | omega | rfl

theorem bqTypeOf_of_le {sel : U8} (h : 3 ≤ sel.toNat) : bqTypeOf sel = none := by
  unfold bqTypeOf; split <;> first | omega | rfl

theorem lfoShapeOf_of_le {sel : U8} (h : 6 ≤ sel.toNat) : lfoShapeOf sel = none := by
  unfold lfoShapeOf; split <;> first | omega | rfl

theorem pageOf_of_le {sel : U8} (h : 2 ≤ sel.toNat) : pageOf sel = none := by
  unfold pageOf; split <;> first | omega | rfl

theorem tableOf_of_le {n : Nat} {sel : U8} (h : n ≤ sel.toNat) : tableOf n sel = none :=
  if_neg (not_lt.2 h)

theorem rejects_of_no_selector {α β : Type} {records : List α} {u : U8} {sel : Option β} {s : State}
    {rule : α → β → State} (hunit : decide (u.toNat < records.length) = true) (hsel : sel = none) :
    (.next (withUnit records u s fun a => withSelector sel s (rule a)) : Host.Outcome State Fault Refusal) =
      .next (s.reject .badSelector) := by
  rw [withUnit_of_some s _ (List.getElem?_eq_getElem (of_decide_eq_true hunit)), hsel, withSelector_none]

/-- A command whose unit exists and whose selector is out of range is rejected with BAD_SELECTOR
(30_encoding.md R136). -/
theorem exec_of_illegal_selector {i : Instr} {s : State} (hunit : i.unitExists s.limits = true)
    (h : i.selectorLegal s.limits = false) : exec i s = .next (s.reject .badSelector) := by
  cases i with
  | oscSetTable u sel =>
    exact rejects_of_no_selector hunit (tableOf_of_le (not_lt.1 (of_decide_eq_false h)))
  | onepoleSetMode u sel =>
    exact rejects_of_no_selector hunit (onePoleModeOf_of_le (not_lt.1 (of_decide_eq_false h)))
  | bqSetType u sel =>
    exact rejects_of_no_selector hunit (bqTypeOf_of_le (not_lt.1 (of_decide_eq_false h)))
  | bqGet u sel | adsrGet u sel =>
    exact rejects_of_no_selector hunit (pageOf_of_le (not_lt.1 (of_decide_eq_false h)))
  | lfoSetShape u sel =>
    exact rejects_of_no_selector hunit (lfoShapeOf_of_le (not_lt.1 (of_decide_eq_false h)))
  | wtLookup sel =>
    have hnone : tableOf s.cfg.nTables sel = none := tableOf_of_le (not_lt.1 (of_decide_eq_false h))
    simp [exec, execWtLookup, hnone]
  | _ => cases h

/-- A command that its context does not allow is rejected with CONTEXT (60_exceptions.md R461); such a
command names no unit and takes no selector. -/
theorem exec_of_illegal_context {i : Instr} {s : State}
    (h : contextIllegal s.inIsr (wordOpc (encode i)).toNat = true) :
    exec i s = .next (s.reject .context) := by
  cases i with
  | engBegin | engEnd | engSetCallback =>
    have hisr : s.inIsr = true := by simpa [encode, Laws.word_fields, contextIllegal] using h
    exact congrArg _ (inFgOnly_of_isr _ hisr)
  | engReturn =>
    have hfg : s.inIsr = false := by simpa [encode, Laws.word_fields, contextIllegal] using h
    exact congrArg _ (inIsrOnly_of_fg _ hfg)
  | _ => simp [encode, Laws.word_fields, contextIllegal] at h

/-- Settles O5: the decoder makes the checks that the word alone decides, and the command itself the others,
in the order of R136. -/
theorem commandPortChecksInOrder : Obligations.CommandPortChecksInOrder := by
  intro w s
  by_cases hill : IllegalOpcode (wordOpc w).toNat
  · rw [if_pos hill]
    exact command_of_error (decode_of_illegal hill) s
  by_cases hres : HasReservedBits s.cfg.nTables w
  · rw [if_neg hill, if_pos hres]
    exact command_of_error (decode_of_reserved hill hres) s
  rw [if_neg hill, if_neg hres]
  rcases decode_of_not_reserved hill hres with ⟨i, hi⟩ | ⟨herr, hunit⟩
  · have hcommand : command w s = exec i s := command_of_ok hi s
    obtain rfl : encode i = w := encode_of_decode hi
    split_ifs with hunit hsel hctx
    · exact hcommand.trans (exec_of_absent_unit (unitExists_eq_false.2 hunit))
    · exact hcommand.trans
        (exec_of_illegal_selector (unitExists_iff.2 (not_le.1 hunit)) (selectorLegal_eq_false.2 hsel))
    · exact hcommand.trans (exec_of_illegal_context hctx)
    · exact ⟨i, rfl, hcommand⟩
  · rw [if_pos (hunit s.units.counts)]
    exact command_of_error herr s

/-! ### The examples of 30_encoding.md R141 and 60_exceptions.md R453 -/

/-- Settles O1: the words the decoder rejects, one command whose unit is absent, one with a selector out of
range besides, and one in the wrong context. -/
theorem exampleWordsDecodeAsWritten : Obligations.ExampleWordsDecodeAsWritten := by
  refine ⟨by decide, by decide, by decide, by decide, by decide, by decide, by decide, by decide,
    command_of_error (by decide), command_of_error (by decide), fun s hadsr => ?_,
    command_of_error (by decide), command_of_error (by decide), fun s hlfo => ?_, fun s hisr => ?_⟩
  · have hunit : (Instr.adsrNoteOn 2#8).unitExists s.limits = false := by
      simp [Instr.unitExists, Instr.unitOf, State.limits, Units.counts, hadsr]
    exact (command_of_ok (by decide) s).trans (exec_of_absent_unit hunit)
  · have hunit : (Instr.lfoSetShape 0xFF#8 9#8).unitExists s.limits = false := by
      simpa [Instr.unitExists, Instr.unitOf, State.limits, Units.counts] using hlfo
    exact (command_of_ok (by decide) s).trans (exec_of_absent_unit hunit)
  · exact (command_of_ok (i := .engBegin) (by decide) s).trans (exec_of_illegal_context hisr)

end Sys2Proof.Machine
end

section
/-! PROOF. The one unit a command can change (30_encoding.md R130, R131). -/

namespace Sys2Proof.Machine

/-- The unit `k` of this kind is not the one the word names (30_encoding.md R130, R131). -/
abbrev NotNamed (w : U32) (kind k : Nat) : Prop :=
  (wordOpc w).toNat / 16 ≠ kind ∨ k ≠ (wordUnit w).toNat

/-- `y` has every unit of `x` but the one the word names. -/
structure Units.SameBut (w : U32) (x y : Units) : Prop where
  pacc (k : Nat) (h : NotNamed w 0x1 k) : y.pacc[k]? = x.pacc[k]?
  osc (k : Nat) (h : NotNamed w 0x2 k) : y.osc[k]? = x.osc[k]?
  onepole (k : Nat) (h : NotNamed w 0x3 k) : y.onepole[k]? = x.onepole[k]?
  svf (k : Nat) (h : NotNamed w 0x4 k) : y.svf[k]? = x.svf[k]?
  biquad (k : Nat) (h : NotNamed w 0x5 k) : y.biquad[k]? = x.biquad[k]?
  dc (k : Nat) (h : NotNamed w 0x6 k) : y.dc[k]? = x.dc[k]?
  adsr (k : Nat) (h : NotNamed w 0x7 k) : y.adsr[k]? = x.adsr[k]?
  ar (k : Nat) (h : NotNamed w 0x8 k) : y.ar[k]? = x.ar[k]?
  lfo (k : Nat) (h : NotNamed w 0x9 k) : y.lfo[k]? = x.lfo[k]?

theorem getElem?_set_of_notNamed {α : Type} {l : List α} {a : α} {opc u sel : U8} {kind k : Nat}
    (hkind : opc.toNat / 16 = kind) (h : NotNamed (word opc u sel) kind k) :
    (l.set u.toNat a)[k]? = l[k]? := by
  simp only [NotNamed, Laws.word_fields] at h
  exact List.getElem?_set_ne (Ne.symm (h.resolve_left (not_not.2 hkind)))

namespace Units.SameBut

variable {w : U32} {x : Units} {opc u sel : U8}

theorem refl : SameBut w x x :=
  ⟨fun _ _ => rfl, fun _ _ => rfl, fun _ _ => rfl, fun _ _ => rfl, fun _ _ => rfl, fun _ _ => rfl,
    fun _ _ => rfl, fun _ _ => rfl, fun _ _ => rfl⟩

theorem setPacc (h : opc.toNat / 16 = 0x1) {a : PaccState} :
    SameBut (word opc u sel) x { x with pacc := x.pacc.set u.toNat a } :=
  { refl (x := x) with pacc := fun _ => getElem?_set_of_notNamed h }

theorem setOsc (h : opc.toNat / 16 = 0x2) {a : OscState} :
    SameBut (word opc u sel) x { x with osc := x.osc.set u.toNat a } :=
  { refl (x := x) with osc := fun _ => getElem?_set_of_notNamed h }

theorem setOnepole (h : opc.toNat / 16 = 0x3) {a : OnePoleState} :
    SameBut (word opc u sel) x { x with onepole := x.onepole.set u.toNat a } :=
  { refl (x := x) with onepole := fun _ => getElem?_set_of_notNamed h }

theorem setSvf (h : opc.toNat / 16 = 0x4) {a : SvfState} :
    SameBut (word opc u sel) x { x with svf := x.svf.set u.toNat a } :=
  { refl (x := x) with svf := fun _ => getElem?_set_of_notNamed h }

theorem setBiquad (h : opc.toNat / 16 = 0x5) {a : BiquadState} :
    SameBut (word opc u sel) x { x with biquad := x.biquad.set u.toNat a } :=
  { refl (x := x) with biquad := fun _ => getElem?_set_of_notNamed h }

theorem setDc (h : opc.toNat / 16 = 0x6) {a : DcState} :
    SameBut (word opc u sel) x { x with dc := x.dc.set u.toNat a } :=
  { refl (x := x) with dc := fun _ => getElem?_set_of_notNamed h }

theorem setAdsr (h : opc.toNat / 16 = 0x7) {a : AdsrState} :
    SameBut (word opc u sel) x { x with adsr := x.adsr.set u.toNat a } :=
  { refl (x := x) with adsr := fun _ => getElem?_set_of_notNamed h }

theorem setAr (h : opc.toNat / 16 = 0x8) {a : ArState} :
    SameBut (word opc u sel) x { x with ar := x.ar.set u.toNat a } :=
  { refl (x := x) with ar := fun _ => getElem?_set_of_notNamed h }

theorem setLfo (h : opc.toNat / 16 = 0x9) {a : LfoState} :
    SameBut (word opc u sel) x { x with lfo := x.lfo.set u.toNat a } :=
  { refl (x := x) with lfo := fun _ => getElem?_set_of_notNamed h }

end Units.SameBut

/-- The state after changes no unit but the one the word names. -/
abbrev State.KeepsUnitsBut (w : U32) (s t : State) : Prop := s.units.SameBut w t.units

namespace State.KeepsUnitsBut

/-- A rejection at the unit check changes no unit, so the rule is what counts. -/
theorem ofUnit {α : Type} {records : List α} {w : U32} {u : U8} {s t : State} {rule : α → State}
    (ht : (.next (withUnit records u s rule) : Host.Outcome State Fault Refusal) = .next t)
    (h : ∀ a, s.KeepsUnitsBut w (rule a)) : s.KeepsUnitsBut w t := by
  cases ht
  rcases withUnit_cases records u s rule with ⟨a, -, -, e⟩ | ⟨-, e⟩ <;> rw [e]
  · exact h a
  · exact .refl

theorem ofSelector {α : Type} {sel : Option α} {w : U32} {s : State} {rule : α → State}
    (h : ∀ a, s.KeepsUnitsBut w (rule a)) : s.KeepsUnitsBut w (withSelector sel s rule) := by
  rcases withSelector_cases sel s rule with ⟨a, -, e⟩ | ⟨-, e⟩ <;> rw [e]
  · exact h a
  · exact .refl

end State.KeepsUnitsBut

open Units.SameBut State.KeepsUnitsBut in
/-- A command's own rule writes the record of its kind at its UNIT, or none. -/
theorem exec_keepsUnitsBut {i : Instr} {s t : State} (ht : exec i s = .next t) :
    s.KeepsUnitsBut (encode i) t := by
  cases i with
  | nop | engBegin | engEnd | engSetCallback | engReturn =>
    rw [State.KeepsUnitsBut, (exec_engineOp rfl ht).units_eq]
    exact refl
  | paccSetFreq | paccSetSr | paccSetPhase | paccTick => exact ofUnit ht fun _ => setPacc rfl
  | oscSetFreq | oscSetSr | oscSetPhase | oscSetAmp | oscProcess => exact ofUnit ht fun _ => setOsc rfl
  | oscSetTable => exact ofUnit ht fun _ => ofSelector fun _ => setOsc rfl
  | onepoleSetCutoff | onepoleSetSr | onepoleProcess | onepoleReset =>
    exact ofUnit ht fun _ => setOnepole rfl
  | onepoleSetMode => exact ofUnit ht fun _ => ofSelector fun _ => setOnepole rfl
  | svfSetCutoff | svfSetRes | svfSetSr | svfProcess | svfReset => exact ofUnit ht fun _ => setSvf rfl
  | bqSetCutoff | bqSetSr | bqSetCoeffs | bqProcess | bqReset => exact ofUnit ht fun _ => setBiquad rfl
  | bqSetType => exact ofUnit ht fun _ => ofSelector fun _ => setBiquad rfl
  | dcProcess | dcReset => exact ofUnit ht fun _ => setDc rfl
  | adsrSetAttack | adsrSetDecay | adsrSetSustain | adsrSetRelease | adsrSetSr | adsrNoteOn | adsrProcess =>
    exact ofUnit ht fun _ => setAdsr rfl
  | adsrNoteOff =>
    refine ofUnit ht fun e => ?_
    split
    · exact refl
    · exact setAdsr rfl
  | arSetAttack | arSetRelease | arSetSr | arTrigger | arProcess => exact ofUnit ht fun _ => setAr rfl
  | lfoSetFreq | lfoSetSr | lfoSetSeed | lfoProcess => exact ofUnit ht fun _ => setLfo rfl
  | lfoSetShape => exact ofUnit ht fun _ => ofSelector fun _ => setLfo rfl
  | paccGet | oscGet | onepoleGet | svfGet | dcGet | arGet | lfoGet => exact ofUnit ht fun _ => refl
  | bqGet | adsrGet => exact ofUnit ht fun _ => ofSelector fun page => by cases page <;> exact refl
  | wtLookup => cases ht; exact ofSelector fun _ => refl

/-- Settles O12: the frame of `exec_keepsUnitsBut`, kind by kind. -/
theorem onlyTheNamedUnitChanges : Obligations.OnlyTheNamedUnitChanges := by
  rintro i s t _ _ k ht rfl rfl
  obtain ⟨hpacc, hosc, honepole, hsvf, hbiquad, hdc, hadsr, har, hlfo⟩ := exec_keepsUnitsBut ht
  exact ⟨hpacc k, hosc k, honepole k, hsvf k, hbiquad k, hdc k, hadsr k, har k, hlfo k⟩

end Sys2Proof.Machine
end

section
/-! PROOF. Phase accumulators, oscillators and wavetable lookup (41_phase_oscillator.md), and the getters of
the units that have an accumulator. -/

namespace Sys2Proof.Machine

/-! ### A command whose checks pass runs its rule (30_encoding.md R136) -/

theorem runs_of_record {α : Type} {records : List α} {u : U8} {a : α} (s : State) (rule : α → State)
    (h : records[u.toNat]? = some a) :
    (.next (withUnit records u s rule) : Host.Outcome State Fault Refusal) = .next (rule a) :=
  congrArg _ (withUnit_of_some s rule h)

theorem runs_of_selector {α : Type} {sel : Option α} {x : α} (s : State) (rule : α → State)
    (h : sel = some x) :
    (.next (withSelector sel s rule) : Host.Outcome State Fault Refusal) = .next (rule x) := by
  rw [h, withSelector_some]

theorem tableOf_of_lt {n : Nat} {sel : U8} (h : sel.toNat < n) : tableOf n sel = some sel := if_pos h

/-! ### The accumulator's operations (41_phase_oscillator.md R200, R202 to R204) -/

theorem accSetFreq_eq {a : PaccState} {v freq : F32}
    (hfreq : freq = clampf v zeroF32 (mulF32 a.sr halfF32)) :
    accSetFreq a v = { a with freq := freq, inc := divF64 (widenF32 freq) (widenF32 a.sr) } := by
  subst hfreq; rfl

theorem accSetSr_eq {a : PaccState} {v sr freq : F32}
    (hsr : sr = clampf v Config.unitSrMin Config.unitSrMax)
    (hfreq : freq = clampf a.freq zeroF32 (mulF32 sr halfF32)) :
    accSetSr a v =
      { a with sr := sr, freq := freq, inc := divF64 (widenF32 freq) (widenF32 sr) } := by
  subst hfreq hsr; rfl

/-- The three cases in which the stored phase is 0.0, as one condition. -/
theorem normalisePhase_eq {p r : F64} (hr : r = subF64 p (intToF64 (floorF64 p))) :
    normalisePhase p =
      if isFinite64 p = false ∨ leF64 oneF64 r = true ∨ isZero64 r = true then zeroF64 else r := by
  have hfrac : fracF64 p = r := hr.symm
  unfold normalisePhase
  rw [hfrac]
  cases hfin : isFinite64 p with
  | false => simp
  | true => cases hone : leF64 oneF64 r <;> simp [hone]

theorem accSetPhase_eq {a : PaccState} {p r : F64} (hr : r = subF64 p (intToF64 (floorF64 p))) :
    accSetPhase a p = { a with
      phase := if isFinite64 p = false ∨ leF64 oneF64 r = true ∨ isZero64 r = true
        then zeroF64 else r } := by
  rw [accSetPhase, normalisePhase_eq hr]

theorem paccTick_eq {a : PaccState} {sum ph : F64} (hsum : sum = addF64 a.phase a.inc)
    (hph : ph = if leF64 oneF64 sum then subF64 sum oneF64 else sum) :
    paccTick a = ({ a with phase := ph }, narrowF64 ph, leF64 oneF64 sum) := by
  subst hph hsum; rfl

/-! ### The interpolated lookup (41_phase_oscillator.md R201) -/

theorem wtInterp_of_not_finite (p : Config.Params) (t : Nat) {x : F32} (h : isFinite32 x = false) :
    wtInterp p t x = zeroF32 := by
  simp [wtInterp, h]

theorem wtInterp_of_finite (p : Config.Params) (t : Nat) {x : F32} (h : isFinite32 x = true) :
    wtInterp p t x =
      addF32 (wtValue p t (wtIndex p x))
        (mulF32 (fracF32 x)
          (subF32 (wtValue p t ((wtIndex p x + 1) % p.tableSize)) (wtValue p t (wtIndex p x)))) := by
  simp [wtInterp, h]

/-! ### The statements -/

/-- Settles O35: each command runs the accumulator's operation on the record and stores what it gives. -/
theorem paccCommands : Obligations.PaccCommands := by
  intro s u a ha
  refine ⟨fun freq hfreq => ?setFreq, fun sr freq hsr hfreq => ?setSr, fun p r hp hr => ?setPhase,
    fun sum ph hsum hph => ?tick⟩
  case setFreq =>
    rw [← accSetFreq_eq hfreq]
    exact runs_of_record s _ ha
  case setSr =>
    rw [← accSetSr_eq hsr hfreq]
    exact runs_of_record s _ ha
  case setPhase =>
    subst hp
    rw [← accSetPhase_eq hr]
    exact runs_of_record s _ ha
  case tick =>
    refine (runs_of_record s _ ha).trans ?_
    rw [paccTick_eq hsum hph]
    rfl

/-- Settles O36: the accumulator's setters act on the oscillator's accumulator, the others on a field beside
it. -/
theorem oscillatorSetters : Obligations.OscillatorSetters := by
  intro s u o ho
  refine ⟨fun freq hfreq => ?setFreq, fun sr freq hsr hfreq => ?setSr, fun p r hp hr => ?setPhase,
    runs_of_record s _ ho, fun t ht => ?setTable⟩
  case setFreq =>
    rw [← accSetFreq_eq hfreq]
    exact runs_of_record s _ ho
  case setSr =>
    rw [← accSetSr_eq hsr hfreq]
    exact runs_of_record s _ ho
  case setPhase =>
    subst hp
    rw [← accSetPhase_eq hr]
    exact runs_of_record s _ ho
  case setTable =>
    exact (runs_of_record s _ ho).trans (runs_of_selector s _ (tableOf_of_lt ht))

/-- Settles O37: the oscillator looks up at the phase its tick returns, and the lookup's two samples are the
table's entries at `i0` and, wrapping, at the index after it. -/
theorem oscillatorProcessAndLookup : Obligations.OscillatorProcessAndLookup := by
  refine ⟨fun s u o ho sum ph p hsum hph hp => ?process, fun s t ht => ?lookup,
    fun p t x => ⟨wtInterp_of_not_finite p t, fun i0 i1 s0 s1 _ _ hx hi0 hi1 hs0 hs1 => ?interp⟩⟩
  case process =>
    subst hp
    refine (runs_of_record s _ ho).trans ?_
    rw [paccTick_eq hsum hph]
    rfl
  case lookup => exact runs_of_selector s _ (tableOf_of_lt ht)
  case interp =>
    have hindex : wtIndex p x = i0 := hi0.symm
    have hvalue0 : wtValue p t i0 = s0 := hs0.symm
    have hvalue1 : wtValue p t i1 = s1 := hs1.symm
    rw [wtInterp_of_finite p t hx, hindex, ← hi1, hvalue0, hvalue1]
    rfl

/-- Settles O52: a getter's rule writes results alone; the LFO's shape is written as its number. -/
theorem accumulatorGetters : Obligations.AccumulatorGetters := by
  refine ⟨fun s u a ha => runs_of_record s _ ha, fun s u o ho => runs_of_record s _ ho,
    fun s u l code hl hcode => ?_⟩
  have hshape : code = l.shape.code := by
    rw [hcode]
    cases l.shape <;> rfl
  rw [hshape]
  exact runs_of_record s _ hl

end Sys2Proof.Machine
end

section
/-! PROOF. Derived fields match the stored parameters (42_filters.md R245, 70_reset_and_hazards.md R521):
what each record operation keeps, and so every step. -/

namespace Sys2Proof.Machine

/-! ### What the operations keep -/

/-- The increment is the one derived from the stored frequency and rate (41_phase_oscillator.md R202). -/
abbrev PaccState.IncDerived (a : PaccState) : Prop := a.inc = divF64 (widenF32 a.freq) (widenF32 a.sr)

theorem AccOp.keeps_incDerived {a a' : PaccState} (op : AccOp a a') (h : a.IncDerived) :
    a'.IncDerived := by
  cases op with
  | setFreq | setSr => exact PaccState.derive_inc _
  | setPhase | tick => exact h

theorem OscOp.keeps_incDerived {n : Nat} {o o' : OscState} (op : OscOp n o o')
    (h : o.acc.IncDerived) : o'.acc.IncDerived := by
  cases op with
  | acc op => exact op.keeps_incDerived h
  | amp | table => exact h

theorem LfoOp.keeps_incDerived {l l' : LfoState} (op : LfoOp l l') (h : l.acc.IncDerived) :
    l'.acc.IncDerived := by
  cases op with
  | acc op => exact op.keeps_incDerived h
  | setShape | setSeed => exact h
  | tick => rw [lfoTick_acc]; exact AccOp.tick.keeps_incDerived h

/-- A setter ends in the derivation, and what else is stored the derivation neither reads nor writes. -/
theorem OnePoleOp.keeps_derived {o o' : OnePoleState} (op : OnePoleOp o o') (h : o = o.derive) :
    o' = o'.derive := by
  cases op with
  | setCutoff | setSr => exact (OnePoleState.derive_derive _).symm
  | setMode m => exact congrArg (fun o : OnePoleState => { o with mode := m }) h
  | history lp => exact congrArg (fun o : OnePoleState => { o with lp := lp }) h

theorem SvfOp.keeps_derived {f f' : SvfState} (op : SvfOp f f') (h : f = f.derive) : f' = f'.derive := by
  cases op with
  | setCutoff | setRes | setSr => exact (SvfState.derive_derive _).symm
  | history low band high notch =>
    exact congrArg
      (fun f : SvfState => { f with low := low, band := band, high := high, notch := notch }) h

/-- The derivation neither reads nor writes the history (42_filters.md R280). -/
theorem BiquadState.derive_history (b : BiquadState) (x1 x2 y1 y2 : F32) :
    BiquadState.derive { b with x1 := x1, x2 := x2, y1 := y1, y2 := y2 } =
      { b.derive with x1 := x1, x2 := x2, y1 := y1, y2 := y2 } := by
  obtain ⟨type⟩ := b
  cases type <;> rfl

theorem BiquadOp.keeps_derived {b b' : BiquadState} (op : BiquadOp b b')
    (h : b.type ≠ .direct → b = b.derive) : b'.type ≠ .direct → b' = b'.derive := by
  intro hderived
  cases op with
  | setCutoff | setSr | setType => exact (BiquadState.derive_derive _).symm
  | setCoeffs => exact absurd rfl hderived
  | history x1 x2 y1 y2 =>
    rw [BiquadState.derive_history, ← h hderived]

/-- The derivation neither reads nor writes what a note or a tick changes (43_envelopes.md R321). -/
theorem AdsrState.derive_running (e : AdsrState) (stage : AdsrStage) (level target inc : F32) :
    AdsrState.derive { e with stage := stage, level := level, target := target, inc := inc } =
      { e.derive with stage := stage, level := level, target := target, inc := inc } := by
  simp only [AdsrState.derive]

theorem AdsrOp.keeps_derived {e e' : AdsrState} (op : AdsrOp e e') (h : e = e.derive) :
    e' = e'.derive := by
  cases op with
  | setAttack | setDecay | setSustain | setRelease | setSr => exact (AdsrState.derive_derive _).symm
  | noteOn | noteOff => rw [AdsrState.derive_running, ← h]
  | tick => rw [adsrTick_keeps, AdsrState.derive_running, ← h]

/-- The derivation neither reads nor writes what a trigger or a tick changes (43_envelopes.md R341). -/
theorem ArState.derive_running (e : ArState) (stage : ArStage) (level inc : F32) :
    ArState.derive { e with stage := stage, level := level, inc := inc } =
      { e.derive with stage := stage, level := level, inc := inc } := by
  simp only [ArState.derive]

theorem ArOp.keeps_derived {e e' : ArState} (op : ArOp e e') (h : e = e.derive) : e' = e'.derive := by
  cases op with
  | setAttack | setRelease | setSr => exact (ArState.derive_derive _).symm
  | trigger => rw [ArState.derive_running, ← h]
  | tick => rw [arTick_keeps, ArState.derive_running, ← h]

theorem UnitsOp.derivedOk {s : State} {x : Units} (op : UnitsOp s.cfg.nTables s.units x)
    (h : s.DerivedOk) : (s.mapUnits fun _ => x).DerivedOk := by
  obtain ⟨hpacc, hosc, hlfo, honepole, hsvf, hbiquad, hadsr, har⟩ := id h
  cases op with
  | pacc hk op =>
    exact ⟨forall_mem_set hpacc hk op.keeps_incDerived, hosc, hlfo, honepole, hsvf, hbiquad, hadsr, har⟩
  | osc hk op =>
    exact ⟨hpacc, forall_mem_set hosc hk op.keeps_incDerived, hlfo, honepole, hsvf, hbiquad, hadsr, har⟩
  | lfo hk op =>
    exact ⟨hpacc, hosc, forall_mem_set hlfo hk op.keeps_incDerived, honepole, hsvf, hbiquad, hadsr, har⟩
  | onepole hk op =>
    exact ⟨hpacc, hosc, hlfo, forall_mem_set honepole hk op.keeps_derived, hsvf, hbiquad, hadsr, har⟩
  | svf hk op =>
    exact ⟨hpacc, hosc, hlfo, honepole, forall_mem_set hsvf hk op.keeps_derived, hbiquad, hadsr, har⟩
  | biquad hk op =>
    exact ⟨hpacc, hosc, hlfo, honepole, hsvf, forall_mem_set hbiquad hk op.keeps_derived, hadsr, har⟩
  | adsr hk op =>
    exact ⟨hpacc, hosc, hlfo, honepole, hsvf, hbiquad, forall_mem_set hadsr hk op.keeps_derived, har⟩
  | ar hk op =>
    exact ⟨hpacc, hosc, hlfo, honepole, hsvf, hbiquad, hadsr, forall_mem_set har hk op.keeps_derived⟩
  | same | dc => exact h

/-! ### The statement -/

/-- Settles O59: an operation that stores a parameter ends in the derivation, and every other one leaves the
parameters and what is derived from them; the write of a biquad's coefficients makes the section direct. -/
theorem derivedFieldsMatchParameters : Obligations.DerivedFieldsMatchParameters := by
  intro s t h hs
  refine step_keeps_of_unitsOp (Inv := fun s => s.DerivedOk) ?_ ?_ ?_ h hs
  · intro s t _ hunits h
    unfold State.DerivedOk
    rwa [hunits]
  · exact fun s x op h => op.derivedOk h
  · exact fun s _ => State.derivedOk_resetWith _ _

end Sys2Proof.Machine
end

section
/-! PROOF. The filters' commands (42_filters.md), and the getters of the filters and the envelopes. -/

namespace Sys2Proof.Machine

/-! ### One-pole (42_filters.md R250 to R255) -/

/-- Settles O38: a setter runs the derivation on what it clamped, the others write one field. -/
theorem onePoleSettersAndReset : Obligations.OnePoleSettersAndReset := by
  intro s u o ho
  refine ⟨fun cutoff hcutoff => ?setCutoff, fun sr cutoff hsr hcutoff => ?setSr, ?lowPass,
    ?highPass, runs_of_record s _ ho⟩
  case setCutoff => subst hcutoff; exact runs_of_record s _ ho
  case setSr => subst hcutoff hsr; exact runs_of_record s _ ho
  case lowPass => exact (runs_of_record s _ ho).trans (runs_of_selector s _ rfl)
  case highPass => exact (runs_of_record s _ ho).trans (runs_of_selector s _ rfl)

/-- Settles O39: the mode selects which of the two outputs is the first result. -/
theorem onePoleProcess : Obligations.OnePoleProcess := by
  rintro s u o x lp hp ho rfl rfl rfl
  refine (runs_of_record s _ ho).trans ?_
  cases o.mode <;> rfl

/-! ### State-variable filter (42_filters.md R260 to R265) -/

/-- The derivation, with names for what it gives of the parameters (42_filters.md R260). -/
theorem SvfState.derive_eq {f : F32 → F32 → F32} {q : F32 → F32}
    (hf : ∀ cutoff sr, f cutoff sr = clampf (mulF32 twoF32
      (Config.fnSin (divF32 (mulF32 Config.pi32 cutoff) sr))) Config.svfFMin Config.svfFMax)
    (hq : ∀ res, q res = clampf (divF32 oneF32 res) Config.svfQMin Config.svfQMax) (v : SvfState) :
    v.derive = { v with f := f v.cutoff v.sr, q := q v.res } := by
  rw [hf, hq, SvfState.derive]

/-- Settles O40: a setter runs the derivation on what it clamped. -/
theorem svfSettersAndReset : Obligations.SvfSettersAndReset := by
  intro s u v f q hv hf hq
  have hderive := SvfState.derive_eq hf hq
  refine ⟨fun cutoff hcutoff => ?setCutoff, fun res hres => ?setRes, fun sr cutoff hsr hcutoff => ?setSr,
    runs_of_record s _ hv⟩
  case setCutoff =>
    subst hcutoff
    exact (runs_of_record s _ hv).trans (by rw [hderive]; rfl)
  case setRes =>
    subst hres
    exact (runs_of_record s _ hv).trans (by rw [hderive]; rfl)
  case setSr =>
    subst hcutoff hsr
    exact (runs_of_record s _ hv).trans (by rw [hderive]; rfl)

/-- The tick's four outputs: the high-pass and the band-pass come from the integrators before they are
snapped, the notch from the snapped low-pass (42_filters.md R264). -/
theorem svfTick_eq {v : SvfState} {x low0 high band0 : F32}
    (hlow0 : low0 = addF32 v.low (mulF32 v.f v.band))
    (hhigh : high = subF32 (subF32 x low0) (mulF32 v.q v.band))
    (hband0 : band0 = addF32 (mulF32 v.f high) v.band) :
    svfTick v x = { v with
      low := svfSnapped low0, high := high, band := svfSnapped band0,
      notch := addF32 high (svfSnapped low0) } := by
  subst hband0 hhigh hlow0; rfl

/-- Settles O41: the tick's outputs are the results and the new record. -/
theorem svfProcess : Obligations.SvfProcess := by
  rintro s u v x low0 high band0 low band notch hv rfl hlow0 hhigh hband0 rfl rfl rfl
  refine (runs_of_record s _ hv).trans ?_
  rw [svfTick_eq hlow0 hhigh hband0]
  rfl

/-! ### Biquad (42_filters.md R280 to R286) -/

/-- Settles O42: each prototype's derivation is its row of R280, and the command stores it. -/
theorem biquadPrototypes : Obligations.BiquadPrototypes := by
  rintro s u b lp hp bp w0 cs sn al a0 a1 a2 b0 hb rfl rfl rfl rfl rfl rfl rfl
  refine ⟨?lowPass, ?highPass, ?bandPass⟩
  all_goals
    rintro rfl rfl
    exact ⟨rfl, (runs_of_record s _ hb).trans (runs_of_selector s _ rfl)⟩

/-- A direct section keeps its coefficients (42_filters.md R281, R282). -/
theorem BiquadState.derive_of_direct {b : BiquadState} (h : b.type = .direct) : b.derive = b := by
  unfold BiquadState.derive bqCoeffs
  rw [h]

/-- A command that stores the derivation of a section stores a direct section as it is. -/
theorem stores_direct_or_derived {out : Host.Outcome State Fault Refusal} {s : State} {u : U8}
    {b : BiquadState} (h : out = .next (s.putBiquad u b.derive)) :
    (b.type = .direct → out = .next (s.putBiquad u b)) ∧
    (b.type ≠ .direct → out = .next (s.putBiquad u b.derive)) :=
  ⟨fun hdirect => by rw [h, BiquadState.derive_of_direct hdirect], fun _ => h⟩

/-- Settles O43: both setters end in the derivation, which leaves a direct section as it is. -/
theorem biquadSettersAndReset : Obligations.BiquadSettersAndReset := by
  intro s u b hb
  refine ⟨fun cutoff hcutoff => ?setCutoff, fun sr cutoff hsr hcutoff => ?setSr, runs_of_record s _ hb,
    runs_of_record s _ hb⟩
  case setCutoff =>
    refine stores_direct_or_derived (b := { b with cutoff := cutoff }) ?_
    subst hcutoff
    exact runs_of_record s _ hb
  case setSr =>
    refine stores_direct_or_derived (b := { b with sr := sr, cutoff := cutoff }) ?_
    subst hcutoff hsr
    exact runs_of_record s _ hb

/-! ### Biquad and DC blocker ticks (42_filters.md R285, R300, R301) -/

/-- Settles O44: each tick stores its output and its input as the new history. -/
theorem biquadAndDcProcess : Obligations.BiquadAndDcProcess := by
  refine ⟨?biquad, ?dc⟩
  case biquad =>
    rintro s u b x y hb rfl rfl
    exact runs_of_record s _ hb
  case dc =>
    rintro s u d x y hd rfl rfl
    exact ⟨runs_of_record s _ hd, runs_of_record s _ hd⟩

/-! ### Getters (42_filters.md R256, R266, R287, R302; 43_envelopes.md R330, R347) -/

theorem OnePoleMode.code_eq (m : OnePoleMode) : m.code = if m = .lowPass then 0#32 else 1#32 := by
  cases m <;> rfl

/-- Settles O53: a getter's rule writes results alone; a mode, type or stage is written as its number. -/
theorem filterAndEnvelopeGetters : Obligations.FilterAndEnvelopeGetters := by
  refine ⟨?onepole, fun s u v hv => runs_of_record s _ hv, ?biquad, fun s u d hd => runs_of_record s _ hd,
    ?adsr, ?ar⟩
  case onepole =>
    intro s u o ho
    rw [← OnePoleMode.code_eq]
    exact runs_of_record s _ ho
  case biquad =>
    intro s u b code hb hcode
    obtain rfl : code = b.type.code := by rw [hcode]; cases b.type <;> rfl
    exact ⟨(runs_of_record s _ hb).trans (runs_of_selector s _ rfl),
      (runs_of_record s _ hb).trans (runs_of_selector s _ rfl)⟩
  case adsr =>
    intro s u e code he hcode
    obtain rfl : code = e.stage.code := by rw [hcode]; cases e.stage <;> rfl
    exact ⟨(runs_of_record s _ he).trans (runs_of_selector s _ rfl),
      (runs_of_record s _ he).trans (runs_of_selector s _ rfl)⟩
  case ar =>
    intro s u e code he hcode
    obtain rfl : code = e.stage.code := by rw [hcode]; cases e.stage <;> rfl
    exact runs_of_record s _ he

end Sys2Proof.Machine
end

section
/-! PROOF. The envelopes (43_envelopes.md R331, R348, R371): what adding an increment does to a level, the
invariants of the ADSR and the AR envelope, and the fall after a note-off. -/

namespace Sys2Proof.Machine

/-! ### Adding a number that may be infinite to a finite value -/

namespace Fp

theorem add_of_infinite {f : Fmt} {x y : Fp} (hx : x.mag < f.infMag) (hy : y.mag = f.infMag) :
    add f x y = y := by
  have hxinf : x.isInf f = false := by simp [isInf]; omega
  have hyinf : y.isInf f = true := by simp [isInf, hy]
  simp [add, isNaN_eq_false hx.le, isNaN_eq_false hy.le, hxinf, hyinf]

theorem add_num {f : Fmt} {x y : Fp} (hx : x.mag < f.infMag) (hy : y.Num f) : (add f x y).Num f := by
  rcases Nat.lt_or_eq_of_le hy with hfin | hinf
  · exact add_num_of_finite hx hfin
  · rw [add_of_infinite hx hinf]; exact hy

/-- No number is greater in magnitude than an infinity. -/
theorem natAbs_units_le_infinite {f : Fmt} {b y : Fp} (hb : b.Num f) (hy : y.mag = f.infMag) :
    (b.units f).natAbs ≤ (y.units f).natAbs := by
  rw [natAbs_units, natAbs_units, hy]
  exact magUnits_le_iff.2 hb

/-- A sum with a number that is not positive keeps an upper bound of the exact sum. -/
theorem add_units_le_of_nonpos {f : Fmt} {x y b : Fp} (hx : x.mag < f.infMag) (hy : y.Num f)
    (hb : b.Num f) (h0 : y.units f ≤ 0) (h : x.units f + y.units f ≤ b.units f) :
    (add f x y).units f ≤ b.units f := by
  rcases Nat.lt_or_eq_of_le hy with hfin | hinf
  · exact add_units_le hx hfin hb h
  · have hbound := natAbs_units_le_infinite hb hinf
    rw [add_of_infinite hx hinf]
    omega

/-- A sum with a number that is not negative keeps a lower bound of the exact sum. -/
theorem le_add_units_of_nonneg {f : Fmt} {x y b : Fp} (hx : x.mag < f.infMag) (hy : y.Num f)
    (hb : b.Num f) (h0 : 0 ≤ y.units f) (h : b.units f ≤ x.units f + y.units f) :
    b.units f ≤ (add f x y).units f := by
  rcases Nat.lt_or_eq_of_le hy with hfin | hinf
  · exact le_add_units hx hfin hb h
  · have hbound := natAbs_units_le_infinite hb hinf
    rw [add_of_infinite hx hinf]
    omega

end Fp

/-! ### Levels and increments -/

theorem ltF32_iff {x y : F32} :
    ltF32 x y = true ↔ (unpack32 x).Num fmt32 ∧ (unpack32 y).Num fmt32 ∧
      (unpack32 x).units fmt32 < (unpack32 y).units fmt32 := by
  refine ⟨fun h => ?_, fun ⟨hx, hy, h⟩ => (Fp.lt_iff hx hy).2 h⟩
  obtain ⟨hx, hy⟩ := Fp.num_of_lt h
  exact ⟨hx, hy, (Fp.lt_iff hx hy).1 h⟩

theorem units_zeroF32 : (unpack32 zeroF32).units fmt32 = 0 := by decide
theorem units_oneF32 : (unpack32 oneF32).units fmt32 = 2 ^ 149 := by decide
theorem units_envIncMin : (unpack32 Config.envIncMin).units fmt32 = 2 ^ 125 := by decide

theorem unpack32_addF32 {x y : F32} (hx : (unpack32 x).mag < fmt32.infMag) (hy : (unpack32 y).Num fmt32) :
    unpack32 (addF32 x y) = Fp.add fmt32 (unpack32 x) (unpack32 y) :=
  unpack32_pack32_of_num (Fp.add_num hx hy)

theorem UnitInterval.finite {x : F32} (h : UnitInterval x) : (unpack32 x).mag < fmt32.infMag := by
  obtain ⟨-, -, h0⟩ := leF32_iff.1 h.1
  obtain ⟨-, -, h1⟩ := leF32_iff.1 h.2
  exact Fp.finite_of_between (by decide) (show (unpack32 oneF32).mag < _ by decide) h0 h1

theorem unitInterval_zero : UnitInterval zeroF32 := by decide
theorem unitInterval_one : UnitInterval oneF32 := by decide

/-- A positive increment does not lower a finite level. -/
theorem le_addF32 {x inc : F32} (hx : (unpack32 x).mag < fmt32.infMag) (hinc : ltF32 zeroF32 inc = true) :
    leF32 x (addF32 x inc) = true := by
  obtain ⟨-, hnum, hpos⟩ := ltF32_iff.1 hinc
  rw [units_zeroF32] at hpos
  rw [leF32_iff, unpack32_addF32 hx hnum]
  exact ⟨hx.le, Fp.add_num hx hnum, Fp.le_add_units_of_nonneg hx hnum hx.le hpos.le (by omega)⟩

/-- A sum of a finite level and a negative increment keeps an upper bound of the exact sum. -/
theorem units_addF32_le {x inc : F32} {b : Fp} (hx : (unpack32 x).mag < fmt32.infMag)
    (hinc : ltF32 inc zeroF32 = true) (hb : b.Num fmt32)
    (h : (unpack32 x).units fmt32 + (unpack32 inc).units fmt32 ≤ b.units fmt32) :
    (unpack32 (addF32 x inc)).Num fmt32 ∧ (unpack32 (addF32 x inc)).units fmt32 ≤ b.units fmt32 := by
  obtain ⟨hnum, -, hneg⟩ := ltF32_iff.1 hinc
  rw [units_zeroF32] at hneg
  rw [unpack32_addF32 hx hnum]
  exact ⟨Fp.add_num hx hnum, Fp.add_units_le_of_nonpos hx hnum hb hneg.le h⟩

/-- A negative increment does not raise a finite level. -/
theorem addF32_le {x inc : F32} (hx : (unpack32 x).mag < fmt32.infMag) (hinc : ltF32 inc zeroF32 = true) :
    leF32 (addF32 x inc) x = true := by
  obtain ⟨-, -, hneg⟩ := ltF32_iff.1 hinc
  rw [units_zeroF32] at hneg
  obtain ⟨hnum, hle⟩ := units_addF32_le hx hinc hx.le (by omega)
  exact leF32_iff.2 ⟨hnum, hx.le, hle⟩

/-- A rising level that has not reached 1.0 is in range. -/
theorem unitInterval_rising {level inc : F32} (h : UnitInterval level) (hinc : ltF32 zeroF32 inc = true)
    (hbelow : ¬leF32 oneF32 (addF32 level inc) = true) : UnitInterval (addF32 level inc) := by
  rw [Bool.not_eq_true] at hbelow
  have hrise := le_addF32 h.finite hinc
  exact ⟨leF32_trans h.1 hrise,
    leF32_of_ltF32 (ltF32_of_not_leF32 (by decide) (leF32_not_nan hrise).2 hbelow)⟩

/-- A falling level that has not reached its floor is between the floor and 1.0. -/
theorem falling_mem {level inc floor : F32} (h : UnitInterval level) (hinc : ltF32 inc zeroF32 = true)
    (hfloor : UnitInterval floor) (habove : ¬leF32 (addF32 level inc) floor = true) :
    leF32 floor (addF32 level inc) = true ∧ leF32 (addF32 level inc) oneF32 = true := by
  rw [Bool.not_eq_true] at habove
  have hfall := addF32_le h.finite hinc
  exact ⟨leF32_of_ltF32 (ltF32_of_not_leF32 (leF32_not_nan hfall).1 (leF32_not_nan hfloor.1).2 habove),
    leF32_trans hfall h.2⟩

/-- `maxf` is at least its second argument, whatever the first is. -/
theorem le_maxf (a : F32) {b : F32} (hb : isNaN32 b = false) : leF32 b (maxf a b) = true := by
  unfold maxf
  split_ifs with hnan hlt
  · exact leF32_refl hb
  · exact leF32_refl hb
  · rw [Bool.not_eq_true] at hnan hlt
    exact leF32_of_not_ltF32 hnan hb hlt

/-- A derived increment is at least `ENV_INC_MIN` (43_envelopes.md R321). -/
theorem envIncMin_le_envInc (dL t sr : F32) : leF32 Config.envIncMin (envInc dL t sr) = true :=
  le_maxf _ (by decide)

theorem units_envInc {inc : F32} (h : leF32 Config.envIncMin inc = true) :
    (unpack32 inc).Num fmt32 ∧ 2 ^ 125 ≤ (unpack32 inc).units fmt32 := by
  obtain ⟨-, hnum, hle⟩ := leF32_iff.1 h
  exact ⟨hnum, units_envIncMin ▸ hle⟩

theorem envInc_pos {inc : F32} (h : leF32 Config.envIncMin inc = true) : ltF32 zeroF32 inc = true := by
  obtain ⟨hnum, hle⟩ := units_envInc h
  refine ltF32_iff.2 ⟨by decide, hnum, ?_⟩
  rw [units_zeroF32]
  omega

theorem negF32_envInc_neg {inc : F32} (h : leF32 Config.envIncMin inc = true) :
    ltF32 (negF32 inc) zeroF32 = true := by
  obtain ⟨hnum, hle⟩ := units_envInc h
  rw [ltF32_iff, unpack32_negF32, Fp.units_negate, units_zeroF32]
  exact ⟨hnum, by decide, by omega⟩

/-! ### ADSR (43_envelopes.md R331) -/

/-- What a stage of an ADSR envelope says of the level, the target and the increment (43_envelopes.md R331). -/
def AdsrState.StageOk (e : AdsrState) : Prop :=
  match e.stage with
  | .idle => e.level = zeroF32 ∧ e.inc = zeroF32
  | .attack => ltF32 zeroF32 e.inc = true
  | .decay => ltF32 e.inc zeroF32 = true ∧ leF32 e.target e.level = true
  | .sustain => e.level = e.target ∧ e.inc = zeroF32
  | .release => ltF32 e.inc zeroF32 = true ∧ e.target = zeroF32

/-- The derived increments are at least `ENV_INC_MIN`. -/
abbrev AdsrState.IncsOk (e : AdsrState) : Prop :=
  leF32 Config.envIncMin e.attackInc = true ∧ leF32 Config.envIncMin e.decayInc = true ∧
  leF32 Config.envIncMin e.releaseInc = true

theorem AdsrState.ok_iff {e : AdsrState} :
    e.Ok ↔ UnitInterval e.level ∧ UnitInterval e.target ∧ UnitInterval e.sustain ∧ e.IncsOk ∧ e.StageOk := by
  cases hstage : e.stage <;> simp [AdsrState.Ok, AdsrState.StageOk, hstage, and_assoc]

/-- Deriving the increments again keeps the invariant, whatever the times and the rate are. -/
theorem AdsrState.ok_derive {e : AdsrState} (hlevel : UnitInterval e.level) (htarget : UnitInterval e.target)
    (hsustain : UnitInterval e.sustain) (hstage : e.StageOk) : e.derive.Ok :=
  AdsrState.ok_iff.2 ⟨hlevel, htarget, hsustain,
    ⟨envIncMin_le_envInc _ _ _, envIncMin_le_envInc _ _ _, envIncMin_le_envInc _ _ _⟩, hstage⟩

/-- A tick moves towards the target and ends the stage where the level would reach it, so that no level is
stored beyond one. -/
theorem adsrTick_ok {e : AdsrState} (h : e.Ok) : (adsrTick e).Ok := by
  obtain ⟨hlevel, htarget, hsustain, hincs, hstage⟩ := AdsrState.ok_iff.1 h
  obtain ⟨-, hdecay, -⟩ := id hincs
  unfold AdsrState.StageOk at hstage
  unfold adsrTick
  cases hst : e.stage <;> rw [hst] at hstage <;> dsimp only at hstage ⊢
  case idle => exact h
  case sustain => exact h
  case attack =>
    split_ifs with htop
    · exact AdsrState.ok_iff.2 ⟨unitInterval_one, hsustain, hsustain, hincs,
        negF32_envInc_neg hdecay, hsustain.2⟩
    · refine AdsrState.ok_iff.2 ⟨unitInterval_rising hlevel hstage htop, htarget, hsustain, hincs, ?_⟩
      simpa [AdsrState.StageOk, hst] using hstage
  case decay =>
    obtain ⟨hneg, -⟩ := hstage
    split_ifs with hend
    · exact AdsrState.ok_iff.2 ⟨htarget, htarget, hsustain, hincs, rfl, rfl⟩
    · obtain ⟨hlow, hhigh⟩ := falling_mem hlevel hneg htarget hend
      refine AdsrState.ok_iff.2 ⟨⟨leF32_trans htarget.1 hlow, hhigh⟩, htarget, hsustain, hincs, ?_⟩
      simpa [AdsrState.StageOk, hst] using ⟨hneg, hlow⟩
  case release =>
    split_ifs with hend
    · exact AdsrState.ok_iff.2 ⟨unitInterval_zero, unitInterval_zero, hsustain, hincs, rfl, rfl⟩
    · refine AdsrState.ok_iff.2 ⟨falling_mem hlevel hstage.1 unitInterval_zero hend, htarget, hsustain,
        hincs, ?_⟩
      simpa [AdsrState.StageOk, hst] using hstage

theorem AdsrOp.keeps_ok {e e' : AdsrState} (op : AdsrOp e e') (h : e.Ok) : e'.Ok := by
  obtain ⟨hlevel, htarget, hsustain, hincs, hstage⟩ := AdsrState.ok_iff.1 h
  obtain ⟨hattack, -, hrelease⟩ := id hincs
  cases op with
  | setAttack | setDecay | setRelease | setSr =>
    exact AdsrState.ok_derive hlevel htarget hsustain hstage
  | setSustain v => exact AdsrState.ok_derive hlevel htarget (unitInterval_clampf v) hstage
  | noteOn => exact AdsrState.ok_iff.2 ⟨hlevel, unitInterval_one, hsustain, hincs, envInc_pos hattack⟩
  | noteOff =>
    exact AdsrState.ok_iff.2 ⟨hlevel, unitInterval_zero, hsustain, hincs,
      negF32_envInc_neg hrelease, rfl⟩
  | tick => exact adsrTick_ok h

theorem UnitsOp.adsrOk {n : Nat} {x x' : Units} (op : UnitsOp n x x') (h : ∀ e ∈ x.adsr, e.Ok) :
    ∀ e ∈ x'.adsr, e.Ok := by
  cases op with
  | adsr hk op => exact forall_mem_set h hk op.keeps_ok
  | same | pacc | osc | onepole | svf | biquad | dc | ar | lfo => exact h

/-- Settles O57: each operation on an ADSR record keeps the invariant, and no other command reaches one. -/
theorem adsrInvariant : Obligations.AdsrInvariant := by
  intro s t h hs
  refine step_keeps_of_unitsOp (Inv := fun s => ∀ e ∈ s.units.adsr, e.Ok) ?_ ?_ ?_ h hs
  · exact fun s t _ hunits h => hunits ▸ h
  · exact fun s x op h => op.adsrOk h
  · exact fun s _ => forall_mem_replicate _ AdsrState.ok_reset

/-! ### AR (43_envelopes.md R348) -/

/-- What a stage of an AR envelope says of the level and the increment (43_envelopes.md R348). -/
def ArState.StageOk (e : ArState) : Prop :=
  match e.stage with
  | .idle => e.level = zeroF32 ∧ e.inc = zeroF32
  | .attack => ltF32 zeroF32 e.inc = true
  | .release => ltF32 e.inc zeroF32 = true

/-- The derived increments are at least `ENV_INC_MIN`. -/
abbrev ArState.IncsOk (e : ArState) : Prop :=
  leF32 Config.envIncMin e.attackInc = true ∧ leF32 Config.envIncMin e.releaseInc = true

theorem ArState.ok_iff {e : ArState} : e.Ok ↔ UnitInterval e.level ∧ e.IncsOk ∧ e.StageOk := by
  cases hstage : e.stage <;> simp [ArState.Ok, ArState.StageOk, hstage, and_assoc]

theorem ArState.ok_derive {e : ArState} (hlevel : UnitInterval e.level) (hstage : e.StageOk) :
    e.derive.Ok :=
  ArState.ok_iff.2 ⟨hlevel, ⟨envIncMin_le_envInc _ _ _, envIncMin_le_envInc _ _ _⟩, hstage⟩

/-- A tick ends its stage where the level would reach 1.0 or 0.0, so that no level is stored beyond them. -/
theorem arTick_ok {e : ArState} (h : e.Ok) : (arTick e).Ok := by
  obtain ⟨hlevel, hincs, hstage⟩ := ArState.ok_iff.1 h
  obtain ⟨-, hrelease⟩ := id hincs
  unfold ArState.StageOk at hstage
  unfold arTick
  cases hst : e.stage <;> rw [hst] at hstage <;> dsimp only at hstage ⊢
  case idle => exact h
  case attack =>
    split_ifs with htop
    · exact ArState.ok_iff.2 ⟨unitInterval_one, hincs, negF32_envInc_neg hrelease⟩
    · refine ArState.ok_iff.2 ⟨unitInterval_rising hlevel hstage htop, hincs, ?_⟩
      simpa [ArState.StageOk, hst] using hstage
  case release =>
    split_ifs with hend
    · exact ArState.ok_iff.2 ⟨unitInterval_zero, hincs, rfl, rfl⟩
    · refine ArState.ok_iff.2 ⟨falling_mem hlevel hstage unitInterval_zero hend, hincs, ?_⟩
      simpa [ArState.StageOk, hst] using hstage

theorem ArOp.keeps_ok {e e' : ArState} (op : ArOp e e') (h : e.Ok) : e'.Ok := by
  obtain ⟨hlevel, hincs, hstage⟩ := ArState.ok_iff.1 h
  obtain ⟨hattack, -⟩ := id hincs
  cases op with
  | setAttack | setRelease | setSr => exact ArState.ok_derive hlevel hstage
  | trigger => exact ArState.ok_iff.2 ⟨hlevel, hincs, envInc_pos hattack⟩
  | tick => exact arTick_ok h

theorem UnitsOp.arOk {n : Nat} {x x' : Units} (op : UnitsOp n x x') (h : ∀ e ∈ x.ar, e.Ok) :
    ∀ e ∈ x'.ar, e.Ok := by
  cases op with
  | ar hk op => exact forall_mem_set h hk op.keeps_ok
  | same | pacc | osc | onepole | svf | biquad | dc | adsr | lfo => exact h

/-- Settles O58: each operation on an AR record keeps the invariant, and no other command reaches one. -/
theorem arInvariant : Obligations.ArInvariant := by
  intro s t h hs
  refine step_keeps_of_unitsOp (Inv := fun s => ∀ e ∈ s.units.ar, e.Ok) ?_ ?_ ?_ h hs
  · exact fun s t _ hunits h => hunits ▸ h
  · exact fun s x op h => op.arOk h
  · exact fun s _ => forall_mem_replicate _ ArState.ok_reset

/-! ### A note-off during Attack (43_envelopes.md R371) -/

/-- The value just below one in (0, 1] is at most `ENV_INC_MIN` away: below 1.0 no gap between values is wider. -/
theorem exists_pred_of_unitInterval {x : F32} (h : UnitInterval x) (hpos : ltF32 zeroF32 x = true) :
    ∃ b : Fp, b.Num fmt32 ∧ b.units fmt32 < (unpack32 x).units fmt32 ∧
      (unpack32 x).units fmt32 ≤ b.units fmt32 + 2 ^ 125 := by
  obtain ⟨-, -, h1⟩ := leF32_iff.1 h.2
  obtain ⟨-, -, h0⟩ := ltF32_iff.1 hpos
  have hfin := h.finite
  have hunits := Fp.natAbs_units fmt32 (unpack32 x)
  rw [units_zeroF32] at h0
  rw [units_oneF32] at h1
  obtain ⟨m, hm⟩ := Nat.exists_eq_succ_of_ne_zero (Fp.mag_ne_zero h0.ne')
  have htop : m + 1 ≤ 127 * 2 ^ 23 := by
    rw [← magUnits_le_iff (f := fmt32), show magUnits fmt32 (127 * 2 ^ 23) = 2 ^ 149 by decide,
      ← Nat.succ_eq_add_one, ← hm, ← hunits]
    omega
  have hgap : (2 : Nat) ^ (m / 2 ^ fmt32.mbits - 1) ≤ 2 ^ 125 :=
    Nat.pow_le_pow_right (by decide) (by show m / 2 ^ 23 - 1 ≤ 125; omega)
  have hsucc := magUnits_add_one fmt32 m
  have hstep := Nat.two_pow_pos (m / 2 ^ fmt32.mbits - 1)
  rw [hm, Nat.succ_eq_add_one] at hunits
  refine ⟨⟨false, m⟩, show m ≤ fmt32.infMag by omega, ?_, ?_⟩
  · show (magUnits fmt32 m : Int) < _
    omega
  · show _ ≤ (magUnits fmt32 m : Int) + _
    omega

/-- A release increment lowers every positive level. -/
theorem addF32_negF32_lt {level inc : F32} (h : UnitInterval level) (hpos : ltF32 zeroF32 level = true)
    (hinc : leF32 Config.envIncMin inc = true) : ltF32 (addF32 level (negF32 inc)) level = true := by
  obtain ⟨b, hb, hlt, hgap⟩ := exists_pred_of_unitInterval h hpos
  have hmin := (units_envInc hinc).2
  obtain ⟨hnum, hle⟩ := units_addF32_le h.finite (negF32_envInc_neg hinc) hb (by
    rw [unpack32_negF32, Fp.units_negate]; omega)
  exact ltF32_iff.2 ⟨hnum, h.finite.le, hle.trans_lt hlt⟩

/-- A release increment takes a level of 0 to 0 or below. -/
theorem addF32_negF32_le_zero {level inc : F32} (h : leF32 level zeroF32 = true)
    (hfin : (unpack32 level).mag < fmt32.infMag) (hinc : leF32 Config.envIncMin inc = true) :
    leF32 (addF32 level (negF32 inc)) zeroF32 = true :=
  leF32_trans (addF32_le hfin (negF32_envInc_neg hinc)) h

theorem adsrTick_release {e : AdsrState} (h : e.stage = .release) :
    adsrTick e =
      if leF32 (addF32 e.level e.inc) zeroF32 then
        { e with level := zeroF32, stage := .idle, target := zeroF32, inc := zeroF32 }
      else { e with level := addF32 e.level e.inc } := by
  unfold adsrTick
  rw [h]

/-- The record after a note-off outside Idle (43_envelopes.md R328). -/
def AdsrState.noteOff (e : AdsrState) : AdsrState :=
  { e with stage := .release, target := zeroF32, inc := negF32 e.releaseInc }

theorem execAdsrNoteOff_running {s : State} {u : U8} {e : AdsrState} (he : s.units.adsr[u.toNat]? = some e)
    (h : e.stage ≠ .idle) : exec (.adsrNoteOff u) s = .next (s.putAdsr u e.noteOff) :=
  (runs_of_record s _ he).trans (by rw [if_neg h]; rfl)

theorem execAdsrProcess_record {s : State} {u : U8} {e : AdsrState} (he : s.units.adsr[u.toNat]? = some e) :
    exec (.adsrProcess u) s = .next
      ((s.putAdsr u (adsrTick e)).putRes [(adsrTick e).level, (adsrTick e).stage.code]) :=
  runs_of_record s _ he

theorem State.putAdsr_getElem? {s : State} {u : U8} {e : AdsrState} (he : s.units.adsr[u.toNat]? = some e)
    (e' : AdsrState) : (s.putAdsr u e').units.adsr[u.toNat]? = some e' :=
  List.getElem?_set_self (List.getElem?_eq_some_iff.1 he).1

/-- Settles O48: the tick after the note-off adds the negated release increment, which is at least as wide as
the gap below the level. -/
theorem noteOffDuringAttackFalls : Obligations.NoteOffDuringAttackFalls := by
  intro s u e he hattack h0 h1 hinc
  have hlevel : UnitInterval e.level := ⟨h0, h1⟩
  have hrecord := State.putAdsr_getElem? he e.noteOff
  refine ⟨_, _, adsrTick e.noteOff, execAdsrNoteOff_running he (by rw [hattack]; decide),
    execAdsrProcess_record hrecord, State.putAdsr_getElem? hrecord _, fun hpos => ?falls, fun hzero => ?ends⟩
  case falls =>
    rw [adsrTick_release rfl]
    split
    · exact hpos
    · exact addF32_negF32_lt hlevel hpos hinc
  case ends =>
    have hend : leF32 (addF32 e.noteOff.level e.noteOff.inc) zeroF32 = true :=
      addF32_negF32_le_zero hzero hlevel.finite hinc
    rw [adsrTick_release rfl, if_pos hend]
    exact ⟨rfl, rfl⟩

end Sys2Proof.Machine
end

section
/-! PROOF. The commands of the envelopes and the LFO (43_envelopes.md R320 to R329, R341 to R346, R360 to
R367). -/

namespace Sys2Proof.Machine

/-! ### What the setters derive (43_envelopes.md R320, R321, R341) -/

theorem timeFloor_eq (v : F32) :
    timeFloor v = if isNaN32 v ∨ ltF32 v Config.envTimeMin then Config.envTimeMin else v := by
  simp only [timeFloor, Bool.or_eq_true]

/-- The derivation, with a name for what it gives of a distance, a time and a rate. -/
theorem AdsrState.derive_eq {inc : F32 → F32 → F32 → F32}
    (hinc : ∀ dL time sr, inc dL time sr = maxf (divF32 dL (mulF32 time sr)) Config.envIncMin)
    (e : AdsrState) :
    e.derive = { e with
      attackInc := inc oneF32 e.attack e.sr
      decayInc := inc (subF32 oneF32 e.sustain) e.decay e.sr
      releaseInc := inc oneF32 e.release e.sr } := by
  simp only [hinc, AdsrState.derive, envInc]

/-- The derivation, with a name for what it gives of a time and a rate. -/
theorem ArState.derive_eq {inc : F32 → F32 → F32}
    (hinc : ∀ time sr, inc time sr = maxf (divF32 oneF32 (mulF32 time sr)) Config.envIncMin)
    (e : ArState) :
    e.derive = { e with
      attackInc := inc e.attack e.sr
      releaseInc := inc e.release e.sr } := by
  simp only [hinc, ArState.derive, envInc]

/-! ### ADSR (43_envelopes.md R322 to R329) -/

/-- Settles O45: each setter stores its floored or clamped operand and runs the derivation. -/
theorem adsrSetters : Obligations.AdsrSetters := by
  intro s u e t inc he ht hinc
  rw [← timeFloor_eq] at ht
  have hderive := AdsrState.derive_eq hinc
  refine ⟨?attack, ?decay, fun sustain hsustain => ?sustain, ?release, fun sr hsr => ?sr⟩
  case attack => subst ht; exact (runs_of_record s _ he).trans (by rw [hderive]; rfl)
  case decay => subst ht; exact (runs_of_record s _ he).trans (by rw [hderive]; rfl)
  case sustain => subst hsustain; exact (runs_of_record s _ he).trans (by rw [hderive]; rfl)
  case release => subst ht; exact (runs_of_record s _ he).trans (by rw [hderive]; rfl)
  case sr => subst hsr; exact (runs_of_record s _ he).trans (by rw [hderive]; rfl)

theorem execAdsrNoteOff_idle {s : State} {u : U8} {e : AdsrState} (he : s.units.adsr[u.toNat]? = some e)
    (h : e.stage = .idle) : exec (.adsrNoteOff u) s = .next s :=
  (runs_of_record s _ he).trans (by rw [if_pos h])

/-- Settles O46: a note-on writes the record whatever the stage is; a note-off does so only outside Idle. -/
theorem adsrNotes : Obligations.AdsrNotes := fun s _ _ he =>
  ⟨runs_of_record s _ he, execAdsrNoteOff_idle he, execAdsrNoteOff_running he⟩

/-- Settles O47: the stage machine of the statement is the tick, stage by stage, and the code the stage's
number. -/
theorem adsrProcess : Obligations.AdsrProcess := by
  intro s u e e' level code he hlevel htick hcode
  obtain rfl : e' = adsrTick e := by
    rw [htick, hlevel]
    cases hstage : e.stage <;> simp only [adsrTick, hstage]
  obtain rfl : code = (adsrTick e).stage.code := by
    rw [hcode]
    cases (adsrTick e).stage <;> rfl
  exact execAdsrProcess_record he

/-! ### AR (43_envelopes.md R341 to R346) -/

/-- Settles O49: a setter runs the derivation on what it stored, and the stage machine of the statement is the
tick, stage by stage. -/
theorem arCommands : Obligations.ArCommands := by
  intro s u e e' t level code inc he ht hinc hlevel htick hcode
  rw [← timeFloor_eq] at ht
  have hderive := ArState.derive_eq hinc
  refine ⟨?attack, ?release, fun sr hsr => ?sr, runs_of_record s _ he, ?process⟩
  case attack => subst ht; exact (runs_of_record s _ he).trans (by rw [hderive]; rfl)
  case release => subst ht; exact (runs_of_record s _ he).trans (by rw [hderive]; rfl)
  case sr => subst hsr; exact (runs_of_record s _ he).trans (by rw [hderive]; rfl)
  case process =>
    obtain rfl : e' = arTick e := by
      rw [htick, hlevel]
      cases hstage : e.stage <;> simp only [arTick, hstage]
    obtain rfl : code = (arTick e).stage.code := by
      rw [hcode]
      cases (arTick e).stage <;> rfl
    exact runs_of_record s _ he

/-! ### LFO (43_envelopes.md R360 to R367) -/

/-- Settles O50: the rate setters act on the LFO's accumulator, each code stands for its shape, and only a
seed of 0 is replaced. -/
theorem lfoSetters : Obligations.LfoSetters := by
  intro s u l hl
  refine ⟨fun freq hfreq => ?freq, fun sr freq hsr hfreq => ?sr, ?shape, fun hzero => ?seedZero,
    fun hseed => ?seed⟩
  case freq =>
    rw [← accSetFreq_eq hfreq]
    exact runs_of_record s _ hl
  case sr =>
    rw [← accSetSr_eq hsr hfreq]
    exact runs_of_record s _ hl
  case shape =>
    have hshape : ∀ sel shape, lfoShapeOf sel = some shape →
        exec (.lfoSetShape u sel) s = .next (s.putLfo u { l with shape := shape }) :=
      fun sel shape h => (runs_of_record s _ hl).trans (runs_of_selector s _ h)
    simp only [List.forall_mem_cons, List.not_mem_nil, false_implies, implies_true, and_true]
    exact ⟨hshape _ _ rfl, hshape _ _ rfl, hshape _ _ rfl, hshape _ _ rfl, hshape _ _ rfl,
      hshape _ _ rfl⟩
  case seedZero => exact (runs_of_record s _ hl).trans (by rw [if_pos hzero]; rfl)
  case seed => exact (runs_of_record s _ hl).trans (by rw [if_neg hseed]; rfl)

section
variable {l : LfoState}

theorem lfoTick_sine (h : l.shape = .sine) :
    lfoTick l = { l with acc := (paccTick l.acc).1, out := sineShape (paccTick l.acc).2.1 } := by
  simp only [lfoTick, h]

theorem lfoTick_triangle (h : l.shape = .triangle) :
    lfoTick l = { l with acc := (paccTick l.acc).1, out := triangleShape (paccTick l.acc).2.1 } := by
  simp only [lfoTick, h]

theorem lfoTick_sawtooth (h : l.shape = .sawtooth) :
    lfoTick l = { l with acc := (paccTick l.acc).1, out := sawtoothShape (paccTick l.acc).2.1 } := by
  simp only [lfoTick, h]

theorem lfoTick_square (h : l.shape = .square) :
    lfoTick l = { l with acc := (paccTick l.acc).1, out := squareShape (paccTick l.acc).2.1 } := by
  simp only [lfoTick, h]

theorem lfoTick_sampleHold_wrapped (h : l.shape = .sampleHold) (hwrap : (paccTick l.acc).2.2 = true) :
    lfoTick l = { l with
      acc := (paccTick l.acc).1, rng := xorShift l.rng, held := randomValue (xorShift l.rng),
      out := randomValue (xorShift l.rng) } := by
  simp only [lfoTick, h, hwrap, if_true]

theorem lfoTick_sampleHold_held (h : l.shape = .sampleHold) (hwrap : (paccTick l.acc).2.2 = false) :
    lfoTick l = { l with acc := (paccTick l.acc).1, out := l.held } := by
  simp only [lfoTick, h, hwrap, Bool.false_eq_true, if_false]

theorem lfoTick_noise (h : l.shape = .noise) :
    lfoTick l = { l with
      acc := (paccTick l.acc).1, rng := xorShift l.rng, out := randomValue (xorShift l.rng) } := by
  simp only [lfoTick, h]

theorem execLfoProcess_record {s : State} {u : U8} (hl : s.units.lfo[u.toNat]? = some l) :
    exec (.lfoProcess u) s = .next ((s.putLfo u (lfoTick l)).putRes [(lfoTick l).out]) :=
  runs_of_record s _ hl

end

/-- Settles O51: the tick of the LFO, shape by shape, on the tick of its accumulator. -/
theorem lfoProcess : Obligations.LfoProcess := by
  intro s u l l' sum ph p w1 w2 rng r hl hsum hph hp hw1 hw2 hrng hr hl'
  have hacc : paccTick l.acc = ({ l.acc with phase := ph }, p, leF64 oneF64 sum) := by
    rw [paccTick_eq hsum hph, hp]
  have hwrapped : (paccTick l.acc).2.2 = leF64 oneF64 sum := by rw [hacc]
  have hxor : xorShift l.rng = rng := by rw [hrng, hw2, hw1]; rfl
  have hvalue : randomValue rng = r := hr.symm
  rw [execLfoProcess_record hl]
  subst hl'
  refine ⟨fun hshape => ?sine, fun y hshape hy => ?triangle, fun y hshape hy => ?sawtooth,
    fun y hshape hy => ?square, fun hshape hwrap => ?wrapped, fun hshape hwrap => ?held,
    fun hshape => ?noise⟩
  case sine => rw [lfoTick_sine hshape, hacc]; rfl
  case triangle => rw [lfoTick_triangle hshape, hacc, hy]; rfl
  case sawtooth => rw [lfoTick_sawtooth hshape, hacc, hy]; rfl
  case square => rw [lfoTick_square hshape, hacc, hy]; rfl
  case wrapped =>
    rw [lfoTick_sampleHold_wrapped hshape (hwrapped.trans hwrap), hacc, hxor, hvalue]; rfl
  case held => rw [lfoTick_sampleHold_held hshape (hwrapped.trans hwrap), hacc]; rfl
  case noise => rw [lfoTick_noise hshape, hacc, hxor, hvalue]; rfl

end Sys2Proof.Machine
end

section
/-! PROOF. The transitions of the engine (44_engine.md R401): what each cause can do to the engine, and so what a
step can do. -/

namespace Sys2Proof.Machine

/-! ### What an operation of the engine leads to -/

/-- A begin arms the engine and answers 1, or leaves it stopped and answers 0 (44_engine.md R403). -/
theorem State.engBegin_answer (s : State) (rate pin cb : U32) :
    ((s.engBegin rate pin cb).eng.phase = .armed ∧ (s.engBegin rate pin cb).fg.res0 = 1#32) ∨
    ((s.engBegin rate pin cb).eng.phase = .stopped ∧ (s.engBegin rate pin cb).sticky.beginFail = true ∧
      (s.engBegin rate pin cb).fg.res0 = 0#32) := by
  rcases s.engBegin_cases rate pin cb with ⟨-, e⟩ | ⟨-, ⟨-, e⟩ | ⟨-, ⟨-, e⟩ | ⟨-, e⟩⟩⟩ <;> rw [e]
  · exact .inr ⟨rfl, rfl, rfl⟩
  · exact .inr ⟨rfl, rfl, rfl⟩
  · exact .inr ⟨rfl, rfl, rfl⟩
  · exact .inl ⟨rfl, rfl⟩

/-- A re-arm arms the engine, or stops it and sets REARM_FAIL (60_exceptions.md R470). -/
theorem State.rearm_phase (s : State) :
    s.rearm.eng.phase = .armed ∨ (s.rearm.eng.phase = .stopped ∧ s.rearm.sticky.rearmFail = true) := by
  rcases s.rearm_cases with ⟨-, e⟩ | ⟨-, e⟩ <;> rw [e]
  · exact .inl rfl
  · exact .inr ⟨rfl, rfl⟩

/-- A command that is legal in FG alone finds a running engine ARMED. -/
theorem State.phase_armed_of_fg {s : State} (hfg : s.inIsr = false) (hp : s.eng.phase ≠ .stopped) :
    s.eng.phase = .armed := by
  have hisr := State.phase_ne_inHandler hfg
  cases hphase : s.eng.phase with
  | stopped => exact absurd hphase hp
  | armed => rfl
  | inHandler => exact absurd hphase hisr

/-! ### The rows of the transition table (44_engine.md R401) -/

/-- What can act on the engine. -/
inductive Cause where
  | command (i : Instr)
  | expiry
  | reset
  /-- An access that is no command, a rejected word, or idleness. -/
  | other

/-- What a cause can make of the engine record `e`: the rows of 44_engine.md R401, and reset. -/
inductive EngineChange (e : EngState) : Cause → State → Prop
  | keepsPhase {c : Cause} {t : State} (h : t.eng.phase = e.phase) (hisr : e.phase = .inHandler → t.eng = e) :
      EngineChange e c t
  | begins {t : State} (h : e.phase = .stopped) (ht : t.eng.phase = .armed) (hres : t.fg.res0 = 1#32) :
      EngineChange e (.command .engBegin) t
  | beginFails {t : State} (h : e.phase = .armed) (ht : t.eng.phase = .stopped)
      (hfail : t.sticky.beginFail = true) (hres : t.fg.res0 = 0#32) :
      EngineChange e (.command .engBegin) t
  | ends {t : State} (h : e.phase = .armed) (ht : t.eng.phase = .stopped) :
      EngineChange e (.command .engEnd) t
  | enters {t : State} (h : e.phase = .armed) (hcb : e.cb ≠ 0#32) (ht : t.eng.phase = .inHandler) :
      EngineChange e .expiry t
  | silenceFails {t : State} (h : e.phase = .armed) (hcb : e.cb = 0#32) (ht : t.eng.phase = .stopped)
      (hfail : t.sticky.rearmFail = true) : EngineChange e .expiry t
  | returns {t : State} (h : e.phase = .inHandler) (ht : t.eng.phase = .armed) :
      EngineChange e (.command .engReturn) t
  | returnFails {t : State} (h : e.phase = .inHandler) (ht : t.eng.phase = .stopped)
      (hfail : t.sticky.rearmFail = true) : EngineChange e (.command .engReturn) t
  | resets {t : State} (ht : t.eng.phase = .stopped) : EngineChange e .reset t

namespace EngineChange

theorem ofEngEq {e : EngState} {c : Cause} {t : State} (h : t.eng = e) : EngineChange e c t :=
  .keepsPhase (congrArg EngState.phase h) fun _ => h

/-- An expiry that is latched after the change is no part of it. -/
theorem latched {e : EngState} {c : Cause} {t : State} (h : EngineChange e c t) :
    EngineChange e c t.latchExpiry := by
  cases h with
  | keepsPhase h hisr => exact .keepsPhase h hisr
  | begins h ht hres => exact .begins h ht hres
  | beginFails h ht hfail hres => exact .beginFails h ht hfail hres
  | ends h ht => exact .ends h ht
  | enters h hcb ht => exact .enters h hcb ht
  | silenceFails h hcb ht hfail => exact .silenceFails h hcb ht hfail
  | returns h ht => exact .returns h ht
  | returnFails h ht hfail => exact .returnFails h ht hfail
  | resets ht => exact .resets ht

end EngineChange

/-! ### What each cause does -/

theorem EngineOp.engineChange {s t : State} {i : Instr} (op : EngineOp s i t) :
    EngineChange s.eng (.command i) t := by
  cases op with
  | nop | rejected => exact .ofEngEq rfl
  | beginStopped hfg hp =>
    rcases s.engBegin_answer (s.opU32 0) (s.opU32 1) (s.opU32 2) with ⟨ht, hres⟩ | ⟨ht, -, -⟩
    · exact .begins hp ht hres
    · exact .keepsPhase (ht.trans hp.symm) fun hisr => absurd hisr (State.phase_ne_inHandler hfg)
  | beginRunning hfg hp =>
    have harmed := State.phase_armed_of_fg hfg hp
    rcases s.engineStop.engBegin_answer (s.opU32 0) (s.opU32 1) (s.opU32 2) with
      ⟨ht, -⟩ | ⟨ht, hfail, hres⟩
    · exact .keepsPhase (ht.trans harmed.symm) fun hisr => absurd hisr (State.phase_ne_inHandler hfg)
    · exact .beginFails harmed ht hfail hres
  | endStopped hfg | setCallback hfg =>
    exact .keepsPhase rfl fun hisr => absurd hisr (State.phase_ne_inHandler hfg)
  | endRunning hfg hp => exact .ends (State.phase_armed_of_fg hfg hp) rfl
  | returns hisr =>
    rcases State.rearm_phase (s.mapEnv fun e => e.write (quantize s.cfg.outBits (s.opF32 0))) with
      ht | ⟨ht, hfail⟩
    · exact .returns (State.phase_of_inIsr hisr) ht
    · exact .returnFails (State.phase_of_inIsr hisr) ht hfail

theorem exec_engineChange {i : Instr} {s t : State} (ht : exec i s = .next t) :
    EngineChange s.eng (.command i) t := by
  rcases exec_cases ht with op | ⟨c, rfl⟩ | ⟨x, vs, -, rfl⟩
  · exact op.engineChange
  · exact .ofEngEq rfl
  · exact .ofEngEq rfl

theorem takeExpiry_engineChange (s : State) : EngineChange s.eng .expiry s.takeExpiry := by
  rcases s.takeExpiry_cases with ⟨-, e⟩ | ⟨hp, hcb, e⟩ | ⟨hp, hcb, e⟩ <;> rw [e]
  · exact .ofEngEq rfl
  · rcases s.writeNeutral.rearm_phase with ht | ⟨ht, hfail⟩
    · exact .keepsPhase (ht.trans hp.symm) fun hisr => by rw [hp] at hisr; cases hisr
    · exact .silenceFails hp hcb ht hfail
  · exact .enters hp hcb rfl

/-! ### What a step does -/

/-- The access is a 32-bit write of the command's word to CMD. -/
def BusAccess.Commands (base : Nat) (a : BusAccess) (i : Instr) : Prop :=
  a.addr = base + 0x18 ∧ a.width = .bits32 ∧ a.write = some (encode i)

/-- What a bus access causes: a command that it writes, or nothing. -/
def BusAccess.Causes (base : Nat) (a : BusAccess) : Cause → Prop
  | .command i => a.Commands base i
  | .other => True
  | .expiry | .reset => False

theorem busAccess_engineChange {a : BusAccess} {s t : State} (ht : busAccess a s = .next t) :
    ∃ c, a.Causes s.cfg.baseAddr c ∧ EngineChange s.eng c t := by
  have hsame {t : State} (h : t.eng = s.eng) :
      ∃ c, a.Causes s.cfg.baseAddr c ∧ EngineChange s.eng c t := ⟨.other, trivial, .ofEngEq h⟩
  rcases busAccess_cases a s with ⟨-, e⟩ | ⟨_, -, -, e⟩ | ⟨off, w, hoff, hacc, hw, e⟩ | ⟨_, -, -, -, e⟩ <;>
    rw [e] at ht
  · cases ht; exact hsame rfl
  · cases ht
  · rcases writeReg_cases s w (registerAt off) with e | ⟨-, e⟩ | ⟨hcmd, e⟩ | ⟨k, -, e⟩ <;> rw [e] at ht
    · cases ht; exact hsame rfl
    · cases ht; exact hsame rfl
    · unfold command at ht
      split at ht
      next i hdec =>
        simp only [BusAccess.accepted, Bool.and_eq_true, decide_eq_true_eq] at hacc
        refine ⟨.command i, ⟨?_, hacc.1, ?_⟩, exec_engineChange ht⟩
        · rw [addr_of_windowOffset hoff, registerAt_eq_cmd hcmd]
        · rw [hw, encode_of_decode hdec]
      next => cases ht; exact hsame rfl
    · cases ht; exact hsame rfl
  · cases ht; exact hsame rfl

/-- The step of `s` is by the cause, in the words of 44_engine.md R401; `other` asks for nothing. -/
def State.StepsBy (s : State) : Cause → Prop
  | .command i => s.StepsCommand i
  | .expiry => s.StepsExpiry
  | .reset => s.StepsReset
  | .other => True

/-- An expiry that arrives during the work changes neither what the work starts from nor what it comes to. -/
theorem during_engineChange {P : Cause → Prop} {e : EngState} {g : Arrival} {s t : State}
    {work : State → Host.Outcome State Fault Refusal} (ht : during g work s = .next t)
    (he : s.eng = e)
    (hwork : ∀ u v : State, u.cfg = s.cfg → work u = .next v → ∃ c, P c ∧ EngineChange u.eng c v) :
    ∃ c, P c ∧ EngineChange e c t := by
  subst he
  rcases during_cases ht with ⟨-, h⟩ | ⟨-, h⟩ | ⟨-, u, h, rfl⟩
  · exact hwork _ _ rfl h
  · exact hwork s.latchExpiry _ rfl h
  · obtain ⟨c, hc, change⟩ := hwork _ _ rfl h
    exact ⟨c, hc, change.latched⟩

/-- Every step changes the engine as a row of the table says, by that row's cause. -/
theorem step_engineChange {s t : State} (hs : step s = .next t) :
    ∃ c, s.StepsBy c ∧ EngineChange s.eng c t := by
  rcases step_cases s with ⟨hturn, e⟩ | ⟨g, hturn, ⟨hp, e⟩ | ⟨-, -, e⟩ | ⟨i, rest, hp, hi, e⟩⟩ <;>
    rw [e] at hs
  · cases hs
    exact ⟨.reset, hturn, .resets rfl⟩
  all_goals have hwork : ¬ s.StepsReset := by simp [State.StepsReset, hturn]
  · refine during_engineChange hs rfl fun u v _ hv => ?_
    cases hv
    exact ⟨.expiry, ⟨hwork, .inl hp⟩, takeExpiry_engineChange u⟩
  · cases hs
    exact ⟨.other, trivial, .ofEngEq rfl⟩
  · refine during_engineChange hs rfl fun u v hcfg hv => ?_
    cases i with
    | expire =>
      cases hv
      exact ⟨.expiry, ⟨hwork, .inr ⟨rest, hi⟩⟩, takeExpiry_engineChange u.timerExpired⟩
    | bus a =>
      obtain ⟨c, hc, change⟩ := busAccess_engineChange (a := a) hv
      refine ⟨c, ?_, change⟩
      rw [hcfg] at hc
      cases c with
      | command i => exact ⟨hwork, hp, a, rest, hi, hc⟩
      | other => trivial
      | expiry | reset => exact hc.elim

/-- Settles O31: each row of the table is in the statement under its two phases, with its cause. -/
theorem engineTransitions : Obligations.EngineTransitions := by
  intro s t hs
  obtain ⟨c, hc, change⟩ := step_engineChange hs
  cases change with
  | keepsPhase h hisr =>
    rw [h]
    cases hphase : s.eng.phase with
    | stopped | armed => trivial
    | inHandler => exact hisr hphase
  | begins h ht hres => rw [h, ht]; exact ⟨hc, hres⟩
  | beginFails h ht hfail hres => rw [h, ht]; exact .inl ⟨hc, hfail, hres⟩
  | ends h ht => rw [h, ht]; exact .inr (.inl hc)
  | enters h hcb ht => rw [h, ht]; exact ⟨hc, hcb⟩
  | silenceFails h hcb ht hfail => rw [h, ht]; exact .inr (.inr (.inl ⟨hc, hcb, hfail⟩))
  | returns h ht => rw [h, ht]; exact hc
  | returnFails h ht hfail => rw [h, ht]; exact .inl ⟨hc, hfail⟩
  | resets ht =>
    rw [ht]
    cases s.eng.phase with
    | stopped => trivial
    | armed => exact .inr (.inr (.inr hc))
    | inHandler => exact .inr hc

end Sys2Proof.Machine
end

section
/-! PROOF. Unit commands and the engine are apart (44_engine.md R403), and the period (R402). -/

namespace Sys2Proof.Machine

/-! ### What lies outside the block, through a command (20_memory.md R110, 44_engine.md R403) -/

/-- No input and no turn is taken, and no read is answered. -/
def Env.SameBus (e e' : Env) : Prop :=
  e'.inputs = e.inputs ∧ e'.turns = e.turns ∧ e'.readData = e.readData

theorem State.rearm_sameBus (s : State) : s.env.SameBus s.rearm.env := by
  rcases s.rearm_cases with ⟨-, e⟩ | ⟨-, e⟩ <;> rw [e] <;> exact ⟨rfl, rfl, rfl⟩

theorem State.engBegin_sameBus (s : State) (rate pin cb : U32) :
    s.env.SameBus (s.engBegin rate pin cb).env := by
  rcases s.engBegin_cases rate pin cb with ⟨-, e⟩ | ⟨-, ⟨-, e⟩ | ⟨-, ⟨-, e⟩ | ⟨-, e⟩⟩⟩ <;> rw [e] <;>
    exact ⟨rfl, rfl, rfl⟩

theorem EngineOp.sameBus {s t : State} {i : Instr} (op : EngineOp s i t) : s.env.SameBus t.env := by
  cases op with
  | nop | rejected | endStopped | endRunning | setCallback => exact ⟨rfl, rfl, rfl⟩
  | beginStopped | beginRunning => exact State.engBegin_sameBus _ _ _ _
  | returns => exact State.rearm_sameBus _

/-- A unit command is a rejection or a write of units and results. -/
theorem exec_unit_cases {i : Instr} (hi : Instr.isEngine i = false) {s t : State}
    (ht : exec i s = .next t) :
    (∃ c, t = s.reject c) ∨ ∃ x vs, t = (s.mapUnits fun _ => x).putRes vs := by
  cases exec_acts i hi s.view with
  | rejects c h => cases (h s rfl).symm.trans ht; exact .inl ⟨c, rfl⟩
  | writes x vs _ h => cases (h s rfl).symm.trans ht; exact .inr ⟨x, vs, rfl⟩

/-- Settles O9: a unit command writes units and results, or is rejected; an engine command's effects are those
of `EngineOp`. -/
theorem unitsAndEngineAreApart : Obligations.UnitsAndEngineAreApart := by
  intro i s t ht
  cases hi : Instr.isEngine i with
  | true =>
    have op := exec_engineOp hi ht
    obtain ⟨hinputs, hturns, hread⟩ := op.sameBus
    exact ⟨op.cfg_eq, hinputs, hturns, hread, fun _ => op.units_eq, nofun⟩
  | false =>
    rcases exec_unit_cases hi ht with ⟨c, rfl⟩ | ⟨x, vs, rfl⟩
    · exact ⟨rfl, rfl, rfl, rfl, nofun, fun _ => ⟨rfl, rfl, rfl, rfl, rfl⟩⟩
    · exact ⟨rfl, rfl, rfl, rfl, nofun, fun _ => ⟨rfl, rfl, rfl, rfl, rfl⟩⟩

/-! ### The period (44_engine.md R402) -/

/-- `(10^6 + r div 2) div r` is the nearest whole number to `10^6 / r`, ties up. -/
theorem div_half_up_bounds (n : Nat) {r : Nat} (hr : 0 < r) :
    2 * r * ((n + r / 2) / r) ≤ 2 * n + r ∧ 2 * n + r < 2 * r * ((n + r / 2) / r + 1) := by
  have hdiv := Nat.div_add_mod (n + r / 2) r
  have hmod := Nat.mod_lt (n + r / 2) hr
  rw [Nat.mul_assoc, Nat.mul_assoc, Nat.mul_add_one]
  omega

/-- Settles O23: the bounds of a division that rounds half up; the table is evaluated. -/
theorem periodIsRoundedToNearest : Obligations.PeriodIsRoundedToNearest := by
  refine ⟨fun r hlo hhi => ?_, by decide, by decide, by decide, by decide, by decide, by decide, rfl⟩
  obtain ⟨hbelow, habove⟩ := div_half_up_bounds 1000000 hlo
  rw [period_toNat]
  refine ⟨rfl, hbelow, habove, ?_, ?_⟩
  · exact (Nat.one_le_div_iff hlo).2 (by omega)
  · exact Nat.div_le_of_le_mul (by omega)

end Sys2Proof.Machine
end

section
/-! PROOF. The engine's commands (44_engine.md R400, R403 to R407). -/

namespace Sys2Proof.Machine

/-! ### The checks passed (60_exceptions.md R461) -/

theorem State.bank_of_fg {s : State} (h : s.eng.phase ≠ .inHandler) : s.bank = s.fg := by
  rw [State.bank_eq, if_neg h]

theorem State.bank_of_isr {s : State} (h : s.eng.phase = .inHandler) : s.bank = s.isr := by
  rw [State.bank_eq, if_pos h]

theorem runs_in_fg {s : State} (rule : State) (h : s.eng.phase ≠ .inHandler) :
    (.next (inFgOnly s rule) : Host.Outcome State Fault Refusal) = .next rule :=
  congrArg _ (inFgOnly_of_fg rule (State.inIsr_of_phase_ne h))

theorem runs_in_isr {s : State} (rule : State) (h : s.eng.phase = .inHandler) :
    (.next (inIsrOnly s rule) : Host.Outcome State Fault Refusal) = .next rule :=
  congrArg _ (inIsrOnly_of_isr rule (State.inIsr_of_phase h))

/-- Settles O24: NOP's rule is the state itself, and outside the handler OP0 is the foreground bank's. -/
theorem nopAndSetCallback : Obligations.NopAndSetCallback := fun s =>
  ⟨rfl, fun h => (runs_in_fg _ h).trans (by rw [State.opU32, State.bank_of_fg h])⟩

/-! ### Begin (44_engine.md R403) -/

theorem execEngBegin_stopped {s : State} (h : s.eng.phase = .stopped) :
    exec .engBegin s = .next (s.engBegin (s.fg.op 0) (s.fg.op 1) (s.fg.op 2)) := by
  have hfg : s.eng.phase ≠ .inHandler := by rw [h]; decide
  refine (runs_in_fg _ hfg).trans ?_
  rw [if_neg (not_not.2 h)]
  simp only [State.opU32, State.bank_of_fg hfg]

/-- An engine that runs is stopped first. -/
theorem execEngBegin_armed {s : State} (h : s.eng.phase = .armed) :
    exec .engBegin s = .next (s.engineStop.engBegin (s.fg.op 0) (s.fg.op 1) (s.fg.op 2)) := by
  have hfg : s.eng.phase ≠ .inHandler := by rw [h]; decide
  refine (runs_in_fg _ hfg).trans ?_
  rw [if_pos (by rw [h]; decide)]
  simp only [State.opU32, State.bank_of_fg hfg]

/-- The rate check of R403, on the rate's number. -/
theorem rate_illegal_iff {rate : U32} :
    (rate = 0#32 ∨ Config.engRateMax < rate) ↔ rate = 0#32 ∨ 2000000 < rate.toNat := by
  rw [BitVec.lt_def, show Config.engRateMax.toNat = 2000000 from rfl]

theorem rate_legal {rate : U32} (h0 : rate ≠ 0#32) (hmax : rate.toNat ≤ 2000000) :
    ¬(rate = 0#32 ∨ Config.engRateMax < rate) :=
  mt rate_illegal_iff.1 (not_or.2 ⟨h0, not_lt.2 hmax⟩)

section
variable {s : State} {rate pin cb : U32} {rest : List Bool}

theorem State.engBegin_badRate (h : rate = 0#32 ∨ 2000000 < rate.toNat) :
    s.engBegin rate pin cb = s.beginFail :=
  if_pos (rate_illegal_iff.2 h)

theorem State.engBegin_configureRefused (h0 : rate ≠ 0#32) (hmax : rate.toNat ≤ 2000000)
    (hans : s.env.answers = false :: rest) :
    s.engBegin rate pin cb = State.beginFail
      { s with env := { s.env with
          answers := rest
          asked := s.env.asked + 1
          events := s.env.events ++ [.configure pin rate false]
          transport := { s.env.transport with configured := some (pin, rate, false) } } } := by
  simp [State.engBegin, rate_legal h0 hmax, Env.configure, Env.nextAnswer, Env.answered, hans]

/-- A refused arm is followed by a neutral write. -/
theorem State.engBegin_armRefused (h0 : rate ≠ 0#32) (hmax : rate.toNat ≤ 2000000)
    (hans : s.env.answers = true :: false :: rest) :
    s.engBegin rate pin cb = State.beginFail
      { s with env := { s.env with
          answers := rest
          asked := s.env.asked + 2
          events := s.env.events ++
            [.configure pin rate true, .armOnce (period rate) false, .write s.cfg.neutral]
          transport := { configured := some (pin, rate, true), code := some s.cfg.neutral } } } := by
  simp [State.engBegin, rate_legal h0 hmax, Env.configure, Env.armOnce, Env.nextAnswer, Env.answered, hans,
    State.writeNeutral, State.mapEnv, Env.write]

theorem State.engBegin_accepted (h0 : rate ≠ 0#32) (hmax : rate.toNat ≤ 2000000)
    (hans : s.env.answers = true :: true :: rest) :
    s.engBegin rate pin cb =
      { s with
        fg := { s.fg with res0 := 1#32 }
        eng := { phase := .armed, cb := cb, rate := rate, period := period rate, pin := pin }
        env := { s.env with
          answers := rest
          asked := s.env.asked + 2
          events := s.env.events ++ [.configure pin rate true, .armOnce (period rate) true]
          timer := .armed (period rate)
          transport := { s.env.transport with configured := some (pin, rate, true) } } } := by
  simp [State.engBegin, rate_legal h0 hmax, Env.configure, Env.armOnce, Env.nextAnswer, Env.answered, hans,
    State.putRes, State.mapBank, State.inIsr]

end

/-- A failed begin: the engine's reset record is all zeros, and `RES0` is the foreground bank's. -/
theorem State.beginFail_eq (s : State) :
    s.beginFail =
      { s with
        fg := { s.fg with res0 := 0#32 }
        eng := { phase := .stopped, cb := 0#32, rate := 0#32, period := 0#32, pin := 0#32 }
        sticky := { s.sticky with beginFail := true } } := rfl

/-- What a stop leaves (44_engine.md R404). -/
theorem State.engineStop_eq (s : State) :
    s.engineStop =
      { s with
        expiryPending := false
        eng := { phase := .stopped, cb := 0#32, rate := 0#32, period := 0#32, pin := 0#32 }
        env := { s.env with
          events := s.env.events ++ [.cancel, .write s.cfg.neutral]
          timer := .disarmed
          transport := { s.env.transport with code := some s.cfg.neutral } } } := by
  simp [State.engineStop, Env.cancel, Env.write, EngState.reset]

/-- Settles O25: the accepted begin, of the state itself or of the one a stop leaves. -/
theorem engBeginSucceeds : Obligations.EngBeginSucceeds := by
  rintro s _ _ _ rest rfl rfl rfl h0 hmax hans
  refine ⟨fun hstopped => ?stopped, fun harmed => ?armed⟩
  case stopped => rw [execEngBegin_stopped hstopped, State.engBegin_accepted h0 hmax hans]
  case armed =>
    rw [execEngBegin_armed harmed, State.engBegin_accepted (s := s.engineStop) h0 hmax hans,
      State.engineStop_eq]
    simp

/-! ### End (44_engine.md R405) -/

theorem execEngEnd_armed {s : State} (h : s.eng.phase = .armed) :
    exec .engEnd s = .next s.engineStop :=
  (runs_in_fg _ (by rw [h]; decide)).trans (by rw [if_pos (by rw [h]; decide)])

theorem execEngEnd_stopped {s : State} (h : s.eng.phase = .stopped) :
    exec .engEnd s = .next { s with eng := { s.eng with cb := 0#32 } } :=
  (runs_in_fg _ (by rw [h]; decide)).trans (by rw [if_neg (not_not.2 h)])

/-- Settles O27: a stop, or the callback cleared. -/
theorem engEndStopsTheEngine : Obligations.EngEndStopsTheEngine := fun s =>
  ⟨fun h => by rw [execEngEnd_armed h, State.engineStop_eq], execEngEnd_stopped⟩

/-- Settles O26: the three failures of a begin; and both commands stop an ARMED engine alike. -/
theorem engBeginFails : Obligations.EngBeginFails := by
  refine fun s => ⟨fun hstopped hrate => ?rate, fun rest hstopped h0 hmax hans => ?configure,
    fun rest hstopped h0 hmax hans => ?arm, fun t harmed ht => ?armed⟩
  case rate => rw [execEngBegin_stopped hstopped, State.engBegin_badRate hrate, State.beginFail_eq]
  case configure =>
    rw [execEngBegin_stopped hstopped, State.engBegin_configureRefused h0 hmax hans, State.beginFail_eq]
  case arm =>
    rw [execEngBegin_stopped hstopped, State.engBegin_armRefused h0 hmax hans, State.beginFail_eq]
  case armed =>
    cases (execEngEnd_armed harmed).symm.trans ht
    refine ⟨rfl, ?_⟩
    rw [execEngBegin_armed harmed, execEngBegin_stopped (s := s.engineStop) rfl]
    rfl

/-! ### Return (44_engine.md R407, 60_exceptions.md R468, R470) -/

theorem execEngReturn_handler {s : State} (h : s.eng.phase = .inHandler) :
    exec .engReturn s = .next (s.returnFromHandler (quantize s.cfg.outBits (s.isr.op 0))) := by
  refine (runs_in_isr _ h).trans ?_
  rw [State.opF32, State.bank_of_isr h]

theorem State.rearm_accepted {s : State} {rest : List Bool} (hans : s.env.answers = true :: rest) :
    s.rearm =
      { s with
        eng := { s.eng with phase := .armed }
        env := { s.env with
          answers := rest
          asked := s.env.asked + 1
          events := s.env.events ++ [.armOnce s.eng.period true]
          timer := .armed s.eng.period } } := by
  simp [State.rearm, Env.armOnce, Env.nextAnswer, Env.answered, hans]

/-- A refused re-arm is followed by a neutral write and stops the engine. -/
theorem State.rearm_refused {s : State} {rest : List Bool} (hans : s.env.answers = false :: rest) :
    s.rearm =
      { s with
        eng := { phase := .stopped, cb := 0#32, rate := 0#32, period := 0#32, pin := 0#32 }
        sticky := { s.sticky with rearmFail := true }
        env := { s.env with
          answers := rest
          asked := s.env.asked + 1
          events := s.env.events ++ [.armOnce s.eng.period false, .write s.cfg.neutral]
          transport := { s.env.transport with code := some s.cfg.neutral } } } := by
  simp [State.rearm, Env.armOnce, Env.nextAnswer, Env.answered, hans, State.rearmFail, Env.write,
    EngState.reset]

/-- Settles O28: the code is written, and the re-arm of the state after that write is accepted or refused. -/
theorem engReturnWritesAndRearms : Obligations.EngReturnWritesAndRearms := by
  intro s code rest hisr hcode
  rw [execEngReturn_handler hisr, ← hcode, State.returnFromHandler]
  refine ⟨fun hans => ?accepted, fun hans => ?refused⟩
  case accepted =>
    rw [State.rearm_accepted (s := s.mapEnv fun e => e.write code) hans]
    simp [State.mapEnv, Env.write]
  case refused =>
    rw [State.rearm_refused (s := s.mapEnv fun e => e.write code) hans]
    simp [State.mapEnv, Env.write]

end Sys2Proof.Machine
end

section
/-! PROOF. The quantizer (44_engine.md R408). -/

namespace Sys2Proof.Machine

/-! ### The code of a number of units -/

/-- `(s + 1) · 2^(bits-1)` for a sample of `u` units, itself in units of 2^-149. -/
def scaledUnits (bits : Nat) (u : Int) : Int := (u + 2 ^ 149) * 2 ^ (bits - 1)

/-- The code of a sample of `u` units. -/
def unitsCode (bits : Nat) (u : Int) : Nat := min (scaledUnits bits u / 2 ^ 149).toNat (2 ^ bits - 1)

theorem quantizeExact_eq (bits : Nat) (x : F32) :
    quantizeExact bits x = unitsCode bits ((unpack32 x).units fmt32) := by
  simp [quantizeExact, unitsCode, scaledUnits, unitLog32]

theorem unitsCode_lt (bits : Nat) (u : Int) : unitsCode bits u < 2 ^ bits := by
  have := Nat.two_pow_pos bits
  rw [unitsCode]
  omega

/-- At the ends and in the middle of the range: `k - 1` is the sample, and `k` halves of the codes its place. -/
theorem unitsCode_of_eq {u : Int} {k : Nat} (h : u = (k - 1) * 2 ^ 149) (bits : Nat) :
    unitsCode bits u = min (k * 2 ^ (bits - 1)) (2 ^ bits - 1) := by
  have hscaled : scaledUnits bits u = ((k * 2 ^ (bits - 1) : Nat) : Int) * 2 ^ 149 := by
    rw [scaledUnits, h]
    push_cast
    ring
  rw [unitsCode, hscaled, Int.mul_ediv_cancel _ (by positivity), Int.toNat_natCast]

/-- In [-1, 1) the code is the floor: the bound by the greatest code does nothing. -/
theorem unitsCode_eq_floor {bits : Nat} {u : Int} (hbits : 1 ≤ bits) (hlo : -2 ^ 149 ≤ u)
    (hhi : u < 2 ^ 149) : (unitsCode bits u : Int) = scaledUnits bits u / 2 ^ 149 := by
  obtain ⟨b, rfl⟩ := Nat.exists_eq_add_of_le' hbits
  have h0 : 0 ≤ scaledUnits (b + 1) u / 2 ^ 149 :=
    Int.ediv_nonneg (mul_nonneg (by omega) (by positivity)) (by positivity)
  have hlt : scaledUnits (b + 1) u / 2 ^ 149 < (2 ^ (b + 1) : Nat) := by
    refine Int.ediv_lt_of_lt_mul (by positivity) ?_
    calc (u + 2 ^ 149) * 2 ^ b < (2 * 2 ^ 149) * 2 ^ b := by gcongr; omega
      _ = ((2 ^ (b + 1) : Nat) : Int) * 2 ^ 149 := by push_cast; ring
  rw [unitsCode]
  omega

/-! ### The units that are quantized -/

theorem units_negOneF32 : (unpack32 negOneF32).units fmt32 = -2 ^ 149 := by decide

/-- The clamp of a value that is no NaN, on exact values (00_scope.md R21). -/
theorem units_clampf {x lo hi : F32} (hx : isNaN32 x = false) (h : leF32 lo hi = true) :
    (unpack32 (clampf x lo hi)).units fmt32 =
      max ((unpack32 lo).units fmt32) (min ((unpack32 x).units fmt32) ((unpack32 hi).units fmt32)) := by
  obtain ⟨-, -, hbounds⟩ := leF32_iff.1 h
  rcases clampf_cases x h with ⟨hnan, -⟩ | ⟨hbelow, e⟩ | ⟨habove, e⟩ | ⟨hlo, hhi, e⟩
  · rw [hx] at hnan; cases hnan
  · obtain ⟨-, -, hbelow⟩ := ltF32_iff.1 hbelow
    rw [e]; omega
  · obtain ⟨-, -, habove⟩ := ltF32_iff.1 habove
    rw [e]; omega
  · obtain ⟨-, -, hlo⟩ := leF32_iff.1 hlo
    obtain ⟨-, -, hhi⟩ := leF32_iff.1 hhi
    rw [e]; omega

theorem quantize_of_nan {bits : Nat} {x : F32} (h : isNaN32 x = true) :
    quantize bits x = unitsCode bits 0 := by
  rw [quantize, if_pos h, show clampf zeroF32 negOneF32 oneF32 = zeroF32 by decide, quantizeExact_eq,
    units_zeroF32]

theorem quantize_of_num {bits : Nat} {x : F32} (h : isNaN32 x = false) :
    quantize bits x = unitsCode bits (max (-2 ^ 149) (min ((unpack32 x).units fmt32) (2 ^ 149))) := by
  rw [quantize, if_neg (by simp [h]), quantizeExact_eq, units_clampf h (by decide), units_negOneF32,
    units_oneF32]

theorem quantize_lt (bits : Nat) (x : F32) : quantize bits x < 2 ^ bits := by
  rw [quantize, quantizeExact_eq]
  exact unitsCode_lt _ _

/-- Settles O22: a NaN counts as 0, a sample outside the range as its nearer end, and the codes of those are
`unitsCode_of_eq`'s. -/
theorem quantizeIsTheExactFloor : Obligations.QuantizeIsTheExactFloor := by
  intro bits x hbits _
  have htwice : 2 ^ bits = 2 * 2 ^ (bits - 1) := (mul_pow_sub_one (by omega) 2).symm
  have hpos := Nat.two_pow_pos (bits - 1)
  refine ⟨quantize_lt bits x, fun hnan => ?nan, fun hle => ?bottom, fun hge => ?top,
    fun hlo hhi => ?between, by decide, by decide, by decide, by decide⟩
  case nan =>
    rw [quantize_of_nan hnan, unitsCode_of_eq (k := 1) (by norm_num)]
    omega
  case bottom =>
    obtain ⟨-, -, hu⟩ := leF32_iff.1 hle
    rw [units_negOneF32] at hu
    rw [quantize_of_num (leF32_not_nan hle).1, max_eq_left (by omega),
      unitsCode_of_eq (k := 0) (by norm_num)]
    omega
  case top =>
    obtain ⟨-, -, hu⟩ := leF32_iff.1 hge
    rw [units_oneF32] at hu
    rw [quantize_of_num (leF32_not_nan hge).2, min_eq_right hu, max_eq_right (by omega),
      unitsCode_of_eq (k := 2) (by norm_num)]
    omega
  case between =>
    obtain ⟨-, -, hlo'⟩ := leF32_iff.1 hlo
    obtain ⟨-, -, hhi'⟩ := ltF32_iff.1 hhi
    rw [units_negOneF32] at hlo'
    rw [units_oneF32] at hhi'
    rw [quantize_of_num (leF32_not_nan hlo).2, min_eq_left hhi'.le, max_eq_right hlo',
      unitsCode_eq_floor hbits hlo' hhi']
    exact ⟨Int.ediv_mul_le _ (by positivity), Int.lt_ediv_add_one_mul_self _ (by positivity)⟩

end Sys2Proof.Machine
end

section
/-! PROOF. A command that passes its checks raises no error (60_exceptions.md R450, R454). -/

namespace Sys2Proof.Machine

/-! ### What leaves the error fields of STATUS (10_state.md R54) -/

/-- ERR and LAST_ERR are in `t` as they are in `s`. -/
def State.KeepsErr (s t : State) : Prop :=
  t.sticky.err = s.sticky.err ∧ t.sticky.lastErr = s.sticky.lastErr

/-- A failed re-arm sets REARM_FAIL and no error (60_exceptions.md R470). -/
theorem State.rearm_keepsErr (s : State) : s.KeepsErr s.rearm := by
  rcases s.rearm_cases with ⟨-, e⟩ | ⟨-, e⟩ <;> rw [e] <;> exact ⟨rfl, rfl⟩

/-- A failed begin sets BEGIN_FAIL and no error (44_engine.md R403). -/
theorem State.engBegin_keepsErr (s : State) (rate pin cb : U32) :
    s.KeepsErr (s.engBegin rate pin cb) := by
  rcases s.engBegin_cases rate pin cb with ⟨-, e⟩ | ⟨-, ⟨-, e⟩ | ⟨-, ⟨-, e⟩ | ⟨-, e⟩⟩⟩ <;> rw [e] <;>
    exact ⟨rfl, rfl⟩

/-! ### A selector below its bound stands for a value (30_encoding.md R133) -/

theorem onePoleModeOf_isSome {sel : U8} (h : sel.toNat < 2) : (onePoleModeOf sel).isSome = true := by
  interval_cases hn : sel.toNat <;> simp [onePoleModeOf, hn]

theorem bqTypeOf_isSome {sel : U8} (h : sel.toNat < 3) : (bqTypeOf sel).isSome = true := by
  interval_cases hn : sel.toNat <;> simp [bqTypeOf, hn]

theorem lfoShapeOf_isSome {sel : U8} (h : sel.toNat < 6) : (lfoShapeOf sel).isSome = true := by
  interval_cases hn : sel.toNat <;> simp [lfoShapeOf, hn]

theorem pageOf_isSome {sel : U8} (h : sel.toNat < 2) : (pageOf sel).isSome = true := by
  interval_cases hn : sel.toNat <;> simp [pageOf, hn]

theorem tableOf_isSome {n : Nat} {sel : U8} (h : sel.toNat < n) : (tableOf n sel).isSome = true := by
  rw [tableOf_of_lt h, Option.isSome_some]

/-! ### A check that passes leaves the errors to the rule (30_encoding.md R136) -/

theorem withUnit_keepsErr {α : Type} {records : List α} {u : U8} {s : State} {rule : α → State}
    (h : u.toNat < records.length) (hrule : ∀ a, s.KeepsErr (rule a)) :
    s.KeepsErr (withUnit records u s rule) := by
  rw [withUnit_of_some s rule (List.getElem?_eq_getElem h)]
  exact hrule _

theorem withSelector_keepsErr {α : Type} {sel : Option α} {s : State} {rule : α → State}
    (h : sel.isSome = true) (hrule : ∀ x, s.KeepsErr (rule x)) :
    s.KeepsErr (withSelector sel s rule) := by
  obtain ⟨x, rfl⟩ := Option.isSome_iff_exists.1 h
  exact hrule x

theorem inFgOnly_keepsErr {s rule : State} (h : s.inIsr = false) (hrule : s.KeepsErr rule) :
    s.KeepsErr (inFgOnly s rule) := by
  rwa [inFgOnly_of_fg rule h]

theorem inIsrOnly_keepsErr {s rule : State} (h : s.inIsr = true) (hrule : s.KeepsErr rule) :
    s.KeepsErr (inIsrOnly s rule) := by
  rwa [inIsrOnly_of_isr rule h]

/-! ### The commands -/

/-- A command whose checks pass runs its rule, and no rule writes the error fields: of the sticky bits an
engine command sets BEGIN_FAIL or REARM_FAIL at most, and a unit command sets none. -/
theorem exec_keepsErr {i : Instr} {s : State} (hunit : i.unitExists s.limits = true)
    (hsel : i.selectorLegal s.limits = true)
    (hctx : contextIllegal s.inIsr (wordOpc (encode i)).toNat = false) :
    ∃ t, exec i s = .next t ∧ s.KeepsErr t := by
  cases i with
  | nop => exact ⟨s, rfl, rfl, rfl⟩
  | engBegin =>
    have hfg : s.inIsr = false := hctx
    refine ⟨_, rfl, inFgOnly_keepsErr hfg ?_⟩
    split
    next => exact s.engineStop.engBegin_keepsErr _ _ _
    next => exact s.engBegin_keepsErr _ _ _
  | engEnd =>
    have hfg : s.inIsr = false := hctx
    refine ⟨_, rfl, inFgOnly_keepsErr hfg ?_⟩
    split <;> exact ⟨rfl, rfl⟩
  | engSetCallback =>
    have hfg : s.inIsr = false := hctx
    exact ⟨_, rfl, inFgOnly_keepsErr hfg ⟨rfl, rfl⟩⟩
  | engReturn =>
    have hisr : s.inIsr = true := (Bool.not_eq_false' _).mp hctx
    exact ⟨_, rfl, inIsrOnly_keepsErr hisr (State.rearm_keepsErr _)⟩
  | oscSetTable u sel =>
    exact ⟨_, rfl, withUnit_keepsErr (of_decide_eq_true hunit) fun _ =>
      withSelector_keepsErr (tableOf_isSome (of_decide_eq_true hsel)) fun _ => ⟨rfl, rfl⟩⟩
  | onepoleSetMode u sel =>
    exact ⟨_, rfl, withUnit_keepsErr (of_decide_eq_true hunit) fun _ =>
      withSelector_keepsErr (onePoleModeOf_isSome (of_decide_eq_true hsel)) fun _ => ⟨rfl, rfl⟩⟩
  | bqSetType u sel =>
    exact ⟨_, rfl, withUnit_keepsErr (of_decide_eq_true hunit) fun _ =>
      withSelector_keepsErr (bqTypeOf_isSome (of_decide_eq_true hsel)) fun _ => ⟨rfl, rfl⟩⟩
  | lfoSetShape u sel =>
    exact ⟨_, rfl, withUnit_keepsErr (of_decide_eq_true hunit) fun _ =>
      withSelector_keepsErr (lfoShapeOf_isSome (of_decide_eq_true hsel)) fun _ => ⟨rfl, rfl⟩⟩
  | bqGet u sel | adsrGet u sel =>
    exact ⟨_, rfl, withUnit_keepsErr (of_decide_eq_true hunit) fun _ =>
      withSelector_keepsErr (pageOf_isSome (of_decide_eq_true hsel)) fun page => by
        cases page <;> exact ⟨rfl, rfl⟩⟩
  | wtLookup sel =>
    exact ⟨_, rfl, withSelector_keepsErr (tableOf_isSome (of_decide_eq_true hsel)) fun _ => ⟨rfl, rfl⟩⟩
  | adsrNoteOff u =>
    refine ⟨_, rfl, withUnit_keepsErr (of_decide_eq_true hunit) fun e => ?_⟩
    split <;> exact ⟨rfl, rfl⟩
  | _ => exact ⟨_, rfl, withUnit_keepsErr (of_decide_eq_true hunit) fun _ => ⟨rfl, rfl⟩⟩

/-- Settles O6: being well-formed is both value checks, and `exec_keepsErr` has the third. -/
theorem acceptedCommandsRunWithoutError : Obligations.AcceptedCommandsRunWithoutError := by
  intro i s hwf hctx
  obtain ⟨hunit, hsel⟩ := Bool.and_eq_true_iff.1 hwf
  exact exec_keepsErr hunit hsel hctx

end Sys2Proof.Machine
end

section
/-! PROOF. The reset input resets the block and leaves its surroundings (70_reset_and_hazards.md R500, R501). -/

namespace Sys2Proof.Machine

/-- A change of the surroundings before the reset input is all of the state that reset lets through: the
parameters and the unit counts, which reset reads, lie inside the block. -/
theorem State.blockReset_mapEnv (s : State) (f : Env → Env) :
    (s.mapEnv f).blockReset = { State.resetWith s.cfg s.units.counts with env := f s.env } := rfl

/-- Settles O32: a reset turn is looked at before the latch and the inputs, so the step takes the turn off the
list and resets the block, and taking the turn changes nothing else outside it. -/
theorem resetInputResetsTheBlock : Obligations.ResetInputResetsTheBlock := by
  intro s hturn
  calc step s
    _ = .next (s.mapEnv Env.nextTurn).blockReset := step_of_reset hturn
    _ = .next { State.resetWith s.cfg s.units.counts with env := s.env.nextTurn } :=
        congrArg _ (s.blockReset_mapEnv Env.nextTurn)

end Sys2Proof.Machine
end
